-- ==== Sys2Proof/Word.lean ====
section
/-! DEFINITION. The word types of the ws2812T-CORE: command words, millisecond times, pixels, row masks and
frames, and the plainest reading of a bit range. -/

namespace Sys2Proof

/-- A command word: one 32-bit value, delivered whole (30_encoding.md R71, 20_memory.md R57). -/
abbrev Word := BitVec 32

/-- A time in milliseconds, `TIME_WIDTH = 32` bits, unsigned, wrapping (00_scope.md R13, 10_state.md R24). -/
abbrev Time := BitVec 32

/-- A pixel or colour packed as red in [23:16], green in [15:8], blue in [7:0] (10_state.md R27). -/
abbrev Pixel := BitVec 24

/-- A row mask of the Pattern ROM: column c stands at bit 4 - c (00_scope.md R18). -/
abbrev Mask := BitVec 5

/-- A FrameBuffer's contents: 25 pixels, index = row * 5 + column (20_memory.md R51). -/
abbrev Frame := Vector Pixel 25

/-- The "off" pixel, (0,0,0) (41_render.md R111). -/
abbrev offPixel : Pixel := 0x000000#24

/-- `w[lo + len - 1 : lo]` as an unsigned number (00_scope.md R17). -/
def bits (w : Word) (lo len : Nat) : Nat := w.toNat / 2 ^ lo % 2 ^ len

end Sys2Proof
end

