-- ==== Sys2Proof/Syntax.lean ====
section
/-! DEFINITION. The commands of the CORE, one constructor per row of spec/opcode_table.json, and the
pseudo-instructions of the assembler. -/

namespace Sys2Proof

/-- The two buttons: 0 = increment, 1 = decrement (10_state.md R29). -/
inductive Button where
  | inc
  | dec
deriving DecidableEq, Repr, Inhabited

/-- A button's number, the field `b` of POLL (30_encoding.md R72). -/
def Button.number : Button → Nat
  | .inc => 0
  | .dec => 1

/-- The button with a given one-bit number. -/
def Button.ofNumber (n : Nat) : Button := if n = 0 then .inc else .dec

/-- The commands (30_encoding.md R72). Operands are the unsigned field values of R73, as plain numbers. -/
inductive Instr where
  /-- LOOKUP d, r: one row mask into `res` (40_pattern_rom.md R100). -/
  | lookup (d r : Nat)
  /-- RENDER d, #c: fill the FrameBuffer from an explicit digit and colour (41_render.md R110). -/
  | render (d : Nat) (c : Pixel)
  /-- RENDERS: fill the FrameBuffer from the selection registers (41_render.md R112). -/
  | renders
  /-- FBREAD i: one pixel into `res` (41_render.md R115). -/
  | fbread (i : Nat)
  /-- EMIT: hand the FrameBuffer to the strip driver (41_render.md R117). -/
  | emit
  /-- BLINK: advance the blinker once (43_blink_sched.md R150). -/
  | blink
  /-- POLL b: run one button's debounce machine once (42_debounce_select.md R130). -/
  | poll (b : Button)
  /-- SELINC: increment the selected digit (42_debounce_select.md R140). -/
  | selinc
  /-- SELDEC: decrement the selected digit (42_debounce_select.md R142). -/
  | seldec
  /-- WAIT n: idle for n milliseconds (43_blink_sched.md R155). -/
  | wait (n : Nat)
  /-- STEP: dispatch the scheduler's current task (43_blink_sched.md R160). -/
  | step
deriving DecidableEq, Repr

/-- The pseudo-instructions (30_encoding.md R81). -/
inductive Pseudo where
  | nop
  | tick
  | run
  | renderSel
deriving DecidableEq, Repr

/-- What a line of assembler stands for: finitely many commands, or one command repeated for ever. -/
inductive Expansion where
  | finite (is : List Instr)
  | forever (i : Instr)
deriving DecidableEq, Repr

/-- The expansions of R81: NOP is WAIT 0, TICK is STEP six times, RUN is STEP repeated for ever and
RENDER.SEL is RENDERS. -/
def Pseudo.expand : Pseudo → Expansion
  | .nop => .finite [.wait 0]
  | .tick => .finite (List.replicate 6 .step)
  | .run => .forever .step
  | .renderSel => .finite [.renders]

end Sys2Proof
end

