-- ==== Sys2Proof/Config.lean ====
section
/-! DEFINITION. The parameters of the hardware and the values the spec leaves free: the timing constants,
the Pattern ROM, and the environment's draws. -/

namespace Sys2Proof

/-- The level of a raw input line (60_exceptions.md R180). -/
inductive Level where
  | low
  | high
deriving DecidableEq, Repr, Inhabited

/-- What the environment chooses for one command: the levels of the two raw button lines at its start
(60_exceptions.md R181) and the time `delta`, in milliseconds and unbounded, that the command takes to run
beyond its own cost (20_memory.md R55). -/
structure EnvDraw where
  btnIncN : Level
  btnDecN : Level
  delta : Nat
deriving DecidableEq, Repr, Inhabited

/-- `DEBOUNCE_MODE` (00_scope.md R14). -/
inductive DebounceMode where
  /-- An accepted press occupies the control thread for `DEBOUNCE_MS`: the value for this hardware. -/
  | blocking
  /-- The documented variant: an accepted press costs no time (42_debounce_select.md R136). -/
  | timestamped
deriving DecidableEq, Repr

namespace Config

/-- `DEBOUNCE_MS` (00_scope.md R10). -/
def debounceMs : Nat := 200

/-- `BLINK_MS` (00_scope.md R11). -/
def blinkMs : Nat := 100

/-- `IDLE_MS` (00_scope.md R12). -/
def idleMs : Nat := 100

/-- `INITIAL_COLOR`, full-intensity red (00_scope.md R16). -/
def initialColor : Pixel := 0xFF0000#24

/-- `DEBOUNCE_MODE` of this hardware (00_scope.md R14). -/
def debounceMode : DebounceMode := .blocking

/-- The strip's data rate in hertz (41_render.md R119). -/
def stripRateHz : Nat := 800000

/-- FREE: the 45 masks of the Pattern ROM that no source gives (00_scope.md R15, log entry 7). The entries
for digit 3 are never read: `patternRom` answers those itself. -/
opaque openMask : Fin 10 → Fin 5 → Mask

/-- The masks of digit 3, rows 0 to 4 (40_pattern_rom.md R101). -/
def digit3Mask (r : Fin 5) : Mask := if r = 1 ∨ r = 3 then 0x01#5 else 0x1F#5

/-- `PATTERN_ROM[d][r]` (40_pattern_rom.md R101). -/
def patternRom (d : Fin 10) (r : Fin 5) : Mask := if d = 3 then digit3Mask r else openMask d r

/-- FREE: the environment's draw for the k-th completed command where none is scripted in the state
(20_memory.md R55, 60_exceptions.md R181, log entry 3). -/
opaque freeDraw : Nat → EnvDraw

end Config

end Sys2Proof
end

