-- ==== Sys2Proof/Machine/State.lean ====
section
/-! DEFINITION. The state of the CORE, register by register (10_state.md R22), the reasons a step can stop,
and the state after reset (70_reset_and_hazards.md R190). -/

namespace Sys2Proof.Machine

/-- The scheduler phase `ph`, codes 0 to 5 in this order (43_blink_sched.md R160, 92_eei_decisions.md D10).
The codes 6 and 7 cannot arise (10_state.md R23) and have no constructor (log entry 10). -/
inductive Phase where
  | blink
  | render
  | emit
  | pollInc
  | pollDec
  | idle
deriving DecidableEq, Repr

/-- `btn_state[b]`: 0 = Idle, 1 = Suppressed (10_state.md R29). -/
inductive BtnState where
  | idle
  | suppressed
deriving DecidableEq, Repr

/-- One debounced button's registers: `btn_state[b]` and `btn_t[b]` (10_state.md R29, R30). -/
structure ButtonRegs where
  state : BtnState
  t : Time
deriving DecidableEq, Repr

/-- The values of the register `fault` (60_exceptions.md R170); `noFault` is NONE. -/
inductive FaultCode where
  | noFault
  | illegalCommand
  | rangeViolation
  | unwrittenRead
deriving DecidableEq, Repr

/-- The faults that a command can raise (60_exceptions.md R170): every code but NONE. -/
inductive FaultKind where
  | illegalCommand
  | rangeViolation
  | unwrittenRead
deriving DecidableEq, Repr

/-- The command stream: the words placed in it, as (index, word) pairs (30_encoding.md R70). -/
abbrev Stream := List (Nat × Word)

/-- The state. `btn_win[0..1]` and `blink_win` are hardwired and are read through `State.btnWin` and
`State.blinkWin` (10_state.md R31, R33); `fb_valid` and `res_valid` are whether `fb` and `res` have been
written, read through `State.fbValid` and `State.resValid` (R28, R35, R41, log entry 8). -/
structure State where
  /-- `pc`: the index of the next command (R21). -/
  pc : Nat
  /-- `ph`: the scheduler phase (R23). -/
  ph : Phase
  /-- `now`: the millisecond counter (R24). -/
  now : Time
  /-- `digit`: the selected digit, 4 bits (R25). -/
  digit : BitVec 4
  /-- `color`: the selected colour; no command writes it (R27). -/
  color : Pixel
  /-- `fb[0..24]`: `none` while unwritten, when it holds no value (R28, R41). -/
  fb : Option Frame
  /-- `btn_state[0]`, `btn_t[0]`: the increment button (R29, R30). -/
  btnInc : ButtonRegs
  /-- `btn_state[1]`, `btn_t[1]`: the decrement button. -/
  btnDec : ButtonRegs
  /-- `blink_on` (R32). -/
  blinkOn : Bool
  /-- `blink_t` (R32). -/
  blinkT : Time
  /-- `status_out` (R34). -/
  statusOut : Bool
  /-- `res`: `none` while unwritten (R35, R41). -/
  res : Option (BitVec 24)
  /-- `fault` (R36). -/
  fault : FaultCode
  /-- `fault_word` (R36). -/
  faultWord : Word
  /-- The strip output trace: the frames emitted, oldest first (41_render.md R118). -/
  trace : List Frame
  /-- The port `cmd`: the command stream (30_encoding.md R70, log entry 1). -/
  stream : Stream
  /-- The model's own: the environment's draws for the next commands, the first for the next one; where it is
  empty the draw is free (60_exceptions.md R181, R186, log entry 3). -/
  script : List EnvDraw
  /-- The model's own: how many draws have been made, the argument of the free draw (log entry 3). -/
  drawIx : Nat
  /-- The parameter `DEBOUNCE_MODE`, held here so that both values can be run; no command writes it
  (00_scope.md R14, log entry 4). -/
  debounceMode : DebounceMode
deriving DecidableEq, Repr

/-- Why the machine stops. -/
inductive Fault where
  /-- Raised by `step` alone, on a state whose `fault` register is not NONE: the CORE is stopped until reset and
  executes nothing (60_exceptions.md R172). Safe: no behaviour is given where the hardware has none. The
  faulting command itself is a next state, with the two fault registers written (R171). -/
  | stopped (code : FaultCode)
deriving DecidableEq, Repr

/-- Why an instruction has no meaning here. -/
inductive Refusal where
  /-- An instruction of the opcode table without a meaning: raised by no arm of `exec`. Safe. -/
  | notModelled (mnemonic : String)
deriving DecidableEq, Repr

/-- Power-on reset (70_reset_and_hazards.md R190, R22's reset column): the stream with nothing placed is
STEP without end (R70). -/
def State.reset : State where
  pc := 0
  ph := .blink
  now := 0#32
  digit := 0#4
  color := Config.initialColor
  fb := none
  btnInc := ⟨.idle, 0#32⟩
  btnDec := ⟨.idle, 0#32⟩
  blinkOn := false
  blinkT := 0#32
  statusOut := false
  res := none
  fault := .noFault
  faultWord := 0#32
  trace := []
  stream := []
  script := []
  drawIx := 0
  debounceMode := Config.debounceMode

end Sys2Proof.Machine
end

