-- ==== Sys2Proof/Machine/Flags.lean ====
section
/-! DEFINITION. The single-bit status registers (10_state.md R37), the hardwired registers, and the time and
digit computations that decide them. -/

namespace Sys2Proof.Machine

/-- `elapsed(a, b) = (a - b) mod 2^TIME_WIDTH` (20_memory.md R54). -/
def elapsed (a b : Time) : Time := a - b

/-- A time advanced by a number of milliseconds, modulo 2^TIME_WIDTH (20_memory.md R55). -/
def advance (t : Time) (n : Nat) : Time := t + BitVec.ofNat 32 n

/-- `btn_win[b]`, hardwired to `DEBOUNCE_MS` for both buttons (10_state.md R31). -/
def State.btnWin (_s : State) (_b : Button) : Time := BitVec.ofNat 32 Config.debounceMs

/-- `blink_win`, hardwired to `BLINK_MS` (10_state.md R33). -/
def State.blinkWin (_s : State) : Time := BitVec.ofNat 32 Config.blinkMs

/-- `fb_valid`: 1 once a render has written the FrameBuffer (10_state.md R28). -/
def State.fbValid (s : State) : Bool := s.fb.isSome

/-- `res_valid`: 1 once `res` has been written (10_state.md R35). -/
def State.resValid (s : State) : Bool := s.res.isSome

/-- The port `status_led`: `status_out` at every instant (60_exceptions.md R182). -/
def State.statusLed (s : State) : Bool := s.statusOut

/-- The registers of button b. -/
def State.btn (s : State) : Button → ButtonRegs
  | .inc => s.btnInc
  | .dec => s.btnDec

/-- The debounce window of a suppressed button is over: `elapsed(now, btn_t[b]) ≥ btn_win[b]`
(42_debounce_select.md R135). -/
def State.windowOver (s : State) (b : Button) : Bool :=
  decide ((s.btnWin b).toNat ≤ (elapsed s.now (s.btn b).t).toNat)

/-- The blink interval is over: `elapsed(now, blink_t) ≥ blink_win` (43_blink_sched.md R150). -/
def State.blinkDue (s : State) : Bool :=
  decide (s.blinkWin.toNat ≤ (elapsed s.now s.blinkT).toNat)

/-- `Inc(d) = (d + 1) mod 10` (42_debounce_select.md R141). -/
def incDigit (d : BitVec 4) : BitVec 4 := BitVec.ofNat 4 ((d.toNat + 1) % 10)

/-- `Dec(d) = (d + 9) mod 10` (42_debounce_select.md R141). -/
def decDigit (d : BitVec 4) : BitVec 4 := BitVec.ofNat 4 ((d.toNat + 9) % 10)

/-- The selection change of a press of button b (42_debounce_select.md R133). -/
def pressDigit : Button → BitVec 4 → BitVec 4
  | .inc => incDigit
  | .dec => decDigit

/-- The next scheduler phase, `(ph + 1) mod 6` (43_blink_sched.md R160). -/
def Phase.next : Phase → Phase
  | .blink => .render
  | .render => .emit
  | .emit => .pollInc
  | .pollInc => .pollDec
  | .pollDec => .idle
  | .idle => .blink

/-- A phase's code in `ph`. -/
def Phase.code : Phase → BitVec 3
  | .blink => 0#3
  | .render => 1#3
  | .emit => 2#3
  | .pollInc => 3#3
  | .pollDec => 4#3
  | .idle => 5#3

/-- A button state's code in `btn_state[b]` (10_state.md R29). -/
def BtnState.code : BtnState → BitVec 1
  | .idle => 0#1
  | .suppressed => 1#1

/-- The value that a raised fault leaves in `fault` (60_exceptions.md R171). -/
def FaultKind.register : FaultKind → FaultCode
  | .illegalCommand => .illegalCommand
  | .rangeViolation => .rangeViolation
  | .unwrittenRead => .unwrittenRead

/-- A fault code in `fault` (60_exceptions.md R170). -/
def FaultCode.code : FaultCode → BitVec 2
  | .noFault => 0#2
  | .illegalCommand => 1#2
  | .rangeViolation => 2#2
  | .unwrittenRead => 3#2

end Sys2Proof.Machine
end

