-- ==== Sys2Proof/WellFormed.lean ====
section
/-! DEFINITION. Which commands can be spelled: every operand fits its field. -/

namespace Sys2Proof

/-- An operand must fit its field: d or r at most 15, i at most 31, n at most 65535, a colour of 24 bits
(30_encoding.md R80). Values that fit but are out of the document's range (a digit of 10 to 15, a row of
5 to 15, an index of 25 to 31) ARE well formed: they fault at execution (R76). -/
def Instr.wellFormed : Instr → Bool
  | .lookup d r => decide (d ≤ 15) && decide (r ≤ 15)
  | .render d _ => decide (d ≤ 15)
  | .renders => true
  | .fbread i => decide (i ≤ 31)
  | .emit => true
  | .blink => true
  | .poll _ => true
  | .selinc => true
  | .seldec => true
  | .wait n => decide (n ≤ 65535)
  | .step => true

/-- `wellFormed` as a proposition. -/
abbrev Instr.WellFormed (i : Instr) : Prop := i.wellFormed = true

end Sys2Proof
end

