-- ==== Sys2Proof/Decode.lean ====
section
/-! DEFINITION. The decoder, total on every 32-bit word and refusing by name, the encoder, and the opcode
map as the spec prints it. -/

namespace Sys2Proof

/-- Why a word spells no command; both are ILLEGAL_COMMAND (30_encoding.md R77). -/
inductive DecodeReject where
  /-- Opcode 0x0 or 0xC to 0xF (R75). -/
  | reservedOpcode
  /-- A defined opcode with a 1 in a reserved bit (R74). -/
  | reservedBits
deriving DecidableEq, Repr

/-- A command if its reserved bits are all zero (R74). -/
def ifZero (reserved : Nat) (i : Instr) : Except DecodeReject Instr :=
  if reserved = 0 then .ok i else .error .reservedBits

/-- The colour field `w[23:0]` (R73). -/
def colorField (w : Word) : Pixel := w.setWidth 24

/-- Decoding by the field layout of R72 and R73: the opcode first (R75), then the reserved bits (R74).
Operand ranges are not checked here (R76). -/
def decode (w : Word) : Except DecodeReject Instr :=
  match bits w 28 4 with
  | 0x1 => ifZero (bits w 8 20) (.lookup (bits w 0 4) (bits w 4 4))
  | 0x2 => .ok (.render (bits w 24 4) (colorField w))
  | 0x3 => ifZero (bits w 0 28) .renders
  | 0x4 => ifZero (bits w 5 23) (.fbread (bits w 0 5))
  | 0x5 => ifZero (bits w 0 28) .emit
  | 0x6 => ifZero (bits w 0 28) .blink
  | 0x7 => ifZero (bits w 1 27) (.poll (Button.ofNumber (bits w 0 1)))
  | 0x8 => ifZero (bits w 0 28) .selinc
  | 0x9 => ifZero (bits w 0 28) .seldec
  | 0xA => ifZero (bits w 16 12) (.wait (bits w 0 16))
  | 0xB => ifZero (bits w 0 28) .step
  | _ => .error .reservedOpcode

/-- The word that spells a command, by the "word" column of R80. -/
def encode : Instr → Word
  | .lookup d r => BitVec.ofNat 32 (0x10000000 + r * 2 ^ 4 + d)
  | .render d c => BitVec.ofNat 32 (0x20000000 + d * 2 ^ 24 + c.toNat)
  | .renders => 0x30000000#32
  | .fbread i => BitVec.ofNat 32 (0x40000000 + i)
  | .emit => 0x50000000#32
  | .blink => 0x60000000#32
  | .poll b => BitVec.ofNat 32 (0x70000000 + b.number)
  | .selinc => 0x80000000#32
  | .seldec => 0x90000000#32
  | .wait n => BitVec.ofNat 32 (0xA0000000 + n)
  | .step => 0xB0000000#32

/-- A command's opcode, bits [31:28] of its word (R72). -/
def Instr.opcode : Instr → Nat
  | .lookup _ _ => 0x1
  | .render _ _ => 0x2
  | .renders => 0x3
  | .fbread _ => 0x4
  | .emit => 0x5
  | .blink => 0x6
  | .poll _ => 0x7
  | .selinc => 0x8
  | .seldec => 0x9
  | .wait _ => 0xA
  | .step => 0xB

/-- One row of the opcode map. -/
structure OpcodeRow where
  mnemonic : String
  opcode : Nat
  matchWord : Word
  mask : Word
deriving DecidableEq, Repr

/-- The opcode map of R78, with each command's opcode of R72. The decoder does not read it: statements
compare the two. -/
def opcodeMap : List OpcodeRow :=
  [ ⟨"LOOKUP", 0x1, 0x10000000#32, 0xFFFFFF00#32⟩,
    ⟨"RENDER", 0x2, 0x20000000#32, 0xF0000000#32⟩,
    ⟨"RENDERS", 0x3, 0x30000000#32, 0xFFFFFFFF#32⟩,
    ⟨"FBREAD", 0x4, 0x40000000#32, 0xFFFFFFE0#32⟩,
    ⟨"EMIT", 0x5, 0x50000000#32, 0xFFFFFFFF#32⟩,
    ⟨"POLL", 0x7, 0x70000000#32, 0xFFFFFFFE#32⟩,
    ⟨"SELINC", 0x8, 0x80000000#32, 0xFFFFFFFF#32⟩,
    ⟨"SELDEC", 0x9, 0x90000000#32, 0xFFFFFFFF#32⟩,
    ⟨"BLINK", 0x6, 0x60000000#32, 0xFFFFFFFF#32⟩,
    ⟨"WAIT", 0xA, 0xA0000000#32, 0xFFFF0000#32⟩,
    ⟨"STEP", 0xB, 0xB0000000#32, 0xFFFFFFFF#32⟩ ]

/-- The 32-bit word that a row of spec/opcode_table.json numbers as `w`: bits above `nbits` are zero. The
CORE delivers a word whole, so no byte order intervenes (20_memory.md R57). -/
def tableWord (nbits w : Nat) : Word := BitVec.ofNat 32 (w % 2 ^ nbits)

/-- What the decoder reads from a table word; no command has more than 32 bits (R71). -/
def decodeTableWord (nbits w : Nat) : Option Instr :=
  if nbits ≤ 32 then (decode (tableWord nbits w)).toOption else none

end Sys2Proof
end

