-- ==== Sys2Proof/Machine/Operands.lean ====
section
/-! DEFINITION. The operand forms of the commands and their ranges (30_encoding.md R73, R76). -/

namespace Sys2Proof.Machine

/-- A digit operand (LOOKUP, RENDER) or the digit register as an index: 0 to 9, else RANGE_VIOLATION
(20_memory.md R58, 60_exceptions.md R170). -/
def digitOperand (d : Nat) : Except FaultKind (Fin 10) :=
  if h : d < 10 then .ok ⟨d, h⟩ else .error .rangeViolation

/-- A row operand (LOOKUP): 0 to 4, else RANGE_VIOLATION. -/
def rowOperand (r : Nat) : Except FaultKind (Fin 5) :=
  if h : r < 5 then .ok ⟨r, h⟩ else .error .rangeViolation

/-- A pixel index operand (FBREAD): 0 to 24, else RANGE_VIOLATION. -/
def pixelOperand (i : Nat) : Except FaultKind (Fin 25) :=
  if h : i < 25 then .ok ⟨i, h⟩ else .error .rangeViolation

/-- The Pattern ROM address of a digit and a row, `digit * 5 + row` (20_memory.md R50). -/
def romAddress (d : Fin 10) (r : Fin 5) : Fin 50 := ⟨d.val * 5 + r.val, by omega⟩

/-- The FrameBuffer address of a row and a column, `row * 5 + column` (20_memory.md R51). -/
def pixelIndex (row column : Fin 5) : Fin 25 := ⟨row.val * 5 + column.val, by omega⟩

/-- The row of a pixel index (41_render.md R116). -/
def pixelRow (i : Fin 25) : Fin 5 := ⟨i.val / 5, by omega⟩

/-- The column of a pixel index (41_render.md R116). -/
def pixelColumn (i : Fin 25) : Fin 5 := ⟨i.val % 5, by omega⟩

end Sys2Proof.Machine
end

