-- ==== Sys2Proof/Machine/Ops.lean ====
section
/-! DEFINITION. The shared operations: the command stream, the Pattern ROM and the FrameBuffer, the
environment's draws, register writes, completing a command, taking a fault, and power-on reset. -/

namespace Sys2Proof.Machine

/-! ### The command stream (30_encoding.md R70) -/

/-- The word at an index where nothing is placed: STEP, since in normal operation the stream is STEP
repeated without end (R70, log entry 1). -/
def unplacedWord : Word := 0xB0000000#32

/-- The word at an index of the stream. -/
def Stream.read : Stream → Nat → Word
  | [], _ => unplacedWord
  | (k, w) :: rest, a => if k = a then w else Stream.read rest a

/-- The stream with word `w` at index `a`, in canonical form. -/
def Stream.place : Stream → Nat → Word → Stream
  | [], a, w => if w = unplacedWord then [] else [(a, w)]
  | (k, v) :: rest, a, w =>
    if a < k then (if w = unplacedWord then (k, v) :: rest else (a, w) :: (k, v) :: rest)
    else if a = k then (if w = unplacedWord then rest else (a, w) :: rest)
    else (k, v) :: Stream.place rest a w

/-- The canonical form: indices strictly rising, and no entry equal to what an unlisted index reads as. -/
def Stream.wf (m : Stream) : Bool :=
  decide (m.Pairwise fun x y => x.1 < y.1) && m.all fun e => decide (e.2 ≠ unplacedWord)

/-- The command word at `pc`. -/
def State.commandWord (s : State) : Word := Stream.read s.stream s.pc

/-- The environment places a word in the stream (R70, "any command of this file may be placed in the
stream"). -/
def State.placeCommand (s : State) (index : Nat) (w : Word) : State :=
  { s with stream := Stream.place s.stream index w }

/-- The environment places consecutive words from an index on. -/
def State.placeProgram (s : State) : Nat → List Word → State
  | _, [] => s
  | index, w :: ws => (s.placeCommand index w).placeProgram (index + 1) ws

/-! ### The environment's draws (20_memory.md R55, 60_exceptions.md R181) -/

/-- The environment's draw for the command that starts in this state: scripted, else free. -/
def State.draw (s : State) : EnvDraw :=
  match s.script with
  | d :: _ => d
  | [] => Config.freeDraw s.drawIx

/-- The raw level of a button's line, read at the start of a poll (R180, R181). -/
def State.line (s : State) : Button → Level
  | .inc => s.draw.btnIncN
  | .dec => s.draw.btnDecN

/-- `sample(b)`: pressed when the active-low line is low (42_debounce_select.md R131). -/
def State.sample (s : State) (b : Button) : Bool := decide (s.line b = .low)

/-- The draw δ of the command that starts in this state (20_memory.md R55). -/
def State.delta (s : State) : Nat := s.draw.delta

/-- The environment scripts the draws of the next commands: synthetic time and synthetic button samples
(60_exceptions.md R186). -/
def State.scriptDraws (s : State) (ds : List EnvDraw) : State := { s with script := ds }

/-! ### The two address spaces (20_memory.md R50, R51) -/

/-- `MemRead(ROM, a) = PATTERN_ROM[a div 5][a mod 5]` (R50). -/
def romRead (a : Fin 50) : Mask := Config.patternRom ⟨a.val / 5, by omega⟩ ⟨a.val % 5, by omega⟩

/-- A cell of a digit is lit when bit 4 - column of its row's mask is 1 (40_pattern_rom.md R102). -/
def lit (d : Fin 10) (row column : Fin 5) : Bool :=
  (romRead (romAddress d row)).getLsbD (4 - column.val)

/-- All of the FrameBuffer, or UNWRITTEN_READ while it is unwritten (R51, 10_state.md R41). -/
def State.fbAll (s : State) : Except FaultKind Frame :=
  match s.fb with
  | some f => .ok f
  | none => .error .unwrittenRead

/-- `MemRead(FB, i)` (R51). -/
def State.fbRead (s : State) (i : Fin 25) : Except FaultKind Pixel :=
  match s.fbAll with
  | .ok f => .ok f[i]
  | .error c => .error c

/-! ### Register writes -/

/-- `fb[0..24] <- f` and `fb_valid <- 1` (10_state.md R28). -/
def State.writeFb (s : State) (f : Frame) : State := { s with fb := some f }

/-- `res <- v` and `res_valid <- 1` (10_state.md R35). -/
def State.writeRes (s : State) (v : BitVec 24) : State := { s with res := some v }

/-- `emit(frame)`: append a frame to the strip output trace (41_render.md R118). -/
def State.emitFrame (s : State) (f : Frame) : State := { s with trace := s.trace ++ [f] }

/-- `digit <- d`. -/
def State.writeDigit (s : State) (d : BitVec 4) : State := { s with digit := d }

/-- Write a button's two registers. -/
def State.setBtn (s : State) (b : Button) (r : ButtonRegs) : State :=
  match b with
  | .inc => { s with btnInc := r }
  | .dec => { s with btnDec := r }

/-- `blink_on <- on` and `blink_t <- t`. -/
def State.recordToggle (s : State) (on : Bool) (t : Time) : State := { s with blinkOn := on, blinkT := t }

/-- `status_out <- blink_on` (10_state.md R34). -/
def State.driveStatus (s : State) : State := { s with statusOut := s.blinkOn }

/-- `ph <- (ph + 1) mod 6`. -/
def State.nextPhase (s : State) : State := { s with ph := s.ph.next }

/-! ### The end of a command -/

/-- A command completes: `pc <- pc + 1` (10_state.md R21), `now` advances by the command's cost and its draw δ
(20_memory.md R55), and the environment moves on to the next draw. -/
def State.complete (s : State) (cost : Nat) : State :=
  { s with
    pc := s.pc + 1
    now := advance s.now (cost + s.delta)
    script := s.script.tail
    drawIx := s.drawIx + 1 }

/-- Taking a fault: `fault <- code`, `fault_word <- w`, and nothing else (60_exceptions.md R171). There is no
return from a fault: only reset clears it (R172). -/
def State.raise (s : State) (kind : FaultKind) (w : Word) : State :=
  { s with fault := kind.register, faultWord := w }

/-- What a command does when it raises no fault: the registers it leaves and its time cost. -/
structure Effect where
  after : State
  cost : Nat
deriving DecidableEq, Repr

/-- The end of command `i` begun in `s`: its effect completed, or its fault taken in `s` with every other effect
discarded (R171). The command word is the word that spells `i` (log entry 13). -/
def conclude (i : Instr) (s : State) : Except FaultKind Effect → Host.Outcome State Fault Refusal
  | .ok e => .next (e.after.complete e.cost)
  | .error kind => .next (s.raise kind (encode i))

/-! ### Command fetch and reset -/

/-- Command fetch: while `fault` is not NONE the CORE is stopped and fetches nothing (60_exceptions.md R172); a word
that spells no command raises ILLEGAL_COMMAND (R170); else the command is executed. -/
def State.fetch (s : State) : Except (Host.Outcome State Fault Refusal) Instr :=
  if s.fault = .noFault then
    match decode s.commandWord with
    | .ok i => .ok i
    | .error _ => .error (.next (s.raise .illegalCommand s.commandWord))
  else .error (.fault (.stopped s.fault))

/-- Power-on: every register and the trace to their reset values (70_reset_and_hazards.md R190, 60_exceptions.md
R187); what the environment holds, and the mode parameter, are not the CORE's and stay (log entry 15). -/
def State.powerOn (s : State) : State :=
  { State.reset with
    stream := s.stream
    script := s.script
    drawIx := s.drawIx
    debounceMode := s.debounceMode }

end Sys2Proof.Machine
end

