-- ==== Sys2Proof/Machine/Rom.lean ====
section
/-! DEFINITION. The Pattern ROM family: LOOKUP (40_pattern_rom.md). -/

namespace Sys2Proof.Machine

/-- LOOKUP's effect (R100): the operands are checked before the ROM is read; the mask is zero-extended into `res`. -/
def lookupEffect (d r : Nat) (s : State) : Except FaultKind Effect :=
  match digitOperand d, rowOperand r with
  | .ok d', .ok r' => .ok ⟨s.writeRes ((romRead (romAddress d' r')).setWidth 24), 0⟩
  | .error e, _ => .error e
  | .ok _, .error e => .error e

/-- LOOKUP (R100). -/
def execLookup (d r : Nat) (s : State) : Host.Outcome State Fault Refusal :=
  conclude (.lookup d r) s (lookupEffect d r s)

end Sys2Proof.Machine
end

