-- ==== Sys2Proof/Machine/Render.lean ====
section
/-! DEFINITION. The rasterizer and the strip port: RENDER, RENDERS, FBREAD and EMIT (41_render.md). -/

namespace Sys2Proof.Machine

/-- `Render(d, c)`: pixel i is `c` where the cell at its row and column is lit, else off (R111). -/
def render (d : Fin 10) (c : Pixel) : Frame :=
  Vector.ofFn fun i => if lit d (pixelRow i) (pixelColumn i) then c else offPixel

/-- The five rows, or the five columns, in order. -/
def lanes : List (Fin 5) := [0, 1, 2, 3, 4]

/-- One row of RENDER's loop: write the colour into the cells of the row whose mask bit is 1 (R110). -/
def rasterRow (d : Fin 10) (c : Pixel) (f : Frame) (row : Fin 5) : Frame :=
  let m := romRead (romAddress d row)
  lanes.foldl (fun g col => if m.getLsbD (4 - col.val) then g.set (pixelIndex row col) c else g) f

/-- RENDER's algorithm as its pseudocode has it (R110): 25 off pixels, then row by row. -/
def raster (d : Fin 10) (c : Pixel) : Frame :=
  lanes.foldl (rasterRow d c) (Vector.replicate 25 offPixel)

/-- The effect of filling the FrameBuffer from `digit` and `color` (R112), the task of STEP's phase 1 too. A digit
register above 9, which no run reaches (10_state.md R26), is an index outside the ROM: RANGE_VIOLATION
(20_memory.md R58, log entry 11). -/
def renderSelection (s : State) : Except FaultKind Effect :=
  match digitOperand s.digit.toNat with
  | .ok d => .ok ⟨s.writeFb (render d s.color), 0⟩
  | .error c => .error c

/-- The effect of handing the FrameBuffer to the strip driver (R117), the task of STEP's phase 2 too. -/
def emitBuffer (s : State) : Except FaultKind Effect :=
  match s.fbAll with
  | .ok f => .ok ⟨s.emitFrame f, 0⟩
  | .error c => .error c

/-- RENDER's effect (R110): the digit is checked before any write. -/
def renderEffect (d : Nat) (c : Pixel) (s : State) : Except FaultKind Effect :=
  match digitOperand d with
  | .ok d' => .ok ⟨s.writeFb (raster d' c), 0⟩
  | .error e => .error e

/-- FBREAD's effect (R115): the index is checked before the FrameBuffer is read (60_exceptions.md R173). -/
def fbreadEffect (i : Nat) (s : State) : Except FaultKind Effect :=
  match pixelOperand i with
  | .error e => .error e
  | .ok i' =>
    match s.fbRead i' with
    | .ok p => .ok ⟨s.writeRes p, 0⟩
    | .error e => .error e

/-- RENDER (R110). -/
def execRender (d : Nat) (c : Pixel) (s : State) : Host.Outcome State Fault Refusal :=
  conclude (.render d c) s (renderEffect d c s)

/-- RENDERS (R112). -/
def execRenders (s : State) : Host.Outcome State Fault Refusal := conclude .renders s (renderSelection s)

/-- FBREAD (R115). -/
def execFbread (i : Nat) (s : State) : Host.Outcome State Fault Refusal :=
  conclude (.fbread i) s (fbreadEffect i s)

/-- EMIT (R117). -/
def execEmit (s : State) : Host.Outcome State Fault Refusal := conclude .emit s (emitBuffer s)

end Sys2Proof.Machine
end

