-- ==== Sys2Proof/Machine/Select.lean ====
section
/-! DEFINITION. The debounced buttons and the selection: POLL, SELINC and SELDEC (42_debounce_select.md). -/

namespace Sys2Proof.Machine

/-- Button b counts as Idle at this poll: it is Idle, or its window is over (R132, R135). -/
def State.pollIdle (s : State) (b : Button) : Bool :=
  decide ((s.btn b).state = .idle) || s.windowOver b

/-- This poll accepts a press: the button counts as Idle and its sample is pressed (R132). -/
def State.pollPress (s : State) (b : Button) : Bool := s.pollIdle b && s.sample b

/-- `PollTask(b)`: POLL without its `res` and `pc` lines (R130). An accepted press is recorded with the start time and
changes the digit (R133); otherwise a window that is over returns the button to Idle (R135). -/
def pollTask (b : Button) (s : State) : State :=
  if s.pollPress b then (s.setBtn b ⟨.suppressed, s.now⟩).writeDigit (pressDigit b s.digit)
  else s.setBtn b ⟨if s.pollIdle b then .idle else .suppressed, (s.btn b).t⟩

/-- The time cost of a poll: the stall of an accepted press in BLOCKING mode (R134), none in TIMESTAMPED mode
(R136). -/
def pollCost (b : Button) (s : State) : Nat :=
  if s.pollPress b ∧ s.debounceMode = .blocking then Config.debounceMs else 0

/-- POLL's effect (R130): the task, and the press event, 0 or 1, in `res`. -/
def pollEffect (b : Button) (s : State) : Effect :=
  ⟨(pollTask b s).writeRes (if s.pollPress b then 1#24 else 0#24), pollCost b s⟩

/-- POLL (R130). -/
def execPoll (b : Button) (s : State) : Host.Outcome State Fault Refusal :=
  conclude (.poll b) s (.ok (pollEffect b s))

/-- SELINC (R140). -/
def execSelinc (s : State) : Host.Outcome State Fault Refusal :=
  conclude .selinc s (.ok ⟨s.writeDigit (incDigit s.digit), 0⟩)

/-- SELDEC (R142). -/
def execSeldec (s : State) : Host.Outcome State Fault Refusal :=
  conclude .seldec s (.ok ⟨s.writeDigit (decDigit s.digit), 0⟩)

end Sys2Proof.Machine
end

