-- ==== Sys2Proof/Machine/Sched.lean ====
section
/-! DEFINITION. The status blinker and the cooperative scheduler: BLINK, WAIT and STEP (43_blink_sched.md). -/

namespace Sys2Proof.Machine

/-- `BlinkTask`: BLINK without its `pc` line (R150). At most one toggle, recorded at the current time (R151, R152); the
status output is driven either way. -/
def blinkTask (s : State) : State :=
  (if s.blinkDue then s.recordToggle (!s.blinkOn) s.now else s).driveStatus

/-- The task of the current phase (R160). -/
def phaseTask (s : State) : Except FaultKind Effect :=
  match s.ph with
  | .blink => .ok ⟨blinkTask s, 0⟩
  | .render => renderSelection s
  | .emit => emitBuffer s
  | .pollInc => .ok ⟨pollTask .inc s, pollCost .inc s⟩
  | .pollDec => .ok ⟨pollTask .dec s, pollCost .dec s⟩
  | .idle => .ok ⟨s, Config.idleMs⟩

/-- STEP's effect (R160): the task of the current phase, then the next phase. -/
def stepEffect (s : State) : Except FaultKind Effect :=
  match phaseTask s with
  | .ok e => .ok ⟨e.after.nextPhase, e.cost⟩
  | .error e => .error e

/-- BLINK (R150). -/
def execBlink (s : State) : Host.Outcome State Fault Refusal := conclude .blink s (.ok ⟨blinkTask s, 0⟩)

/-- WAIT (R155): n milliseconds pass, and nothing else happens (R156). -/
def execWait (n : Nat) (s : State) : Host.Outcome State Fault Refusal := conclude (.wait n) s (.ok ⟨s, n⟩)

/-- STEP (R160). -/
def execStep (s : State) : Host.Outcome State Fault Refusal := conclude .step s (stepEffect s)

end Sys2Proof.Machine
end

