-- ==== Sys2Proof/Machine/Dispatch.lean ====
section
/-! DEFINITION. What each command does: one arm per constructor of Instr. -/

namespace Sys2Proof.Machine

def exec (i : Instr) (s : State) : Host.Outcome State Fault Refusal :=
  match i with
  | .lookup d r => Sys2Proof.Machine.execLookup d r s
  | .render d c => Sys2Proof.Machine.execRender d c s
  | .renders => Sys2Proof.Machine.execRenders s
  | .fbread n => Sys2Proof.Machine.execFbread n s
  | .emit => Sys2Proof.Machine.execEmit s
  | .blink => Sys2Proof.Machine.execBlink s
  | .poll b => Sys2Proof.Machine.execPoll b s
  | .selinc => Sys2Proof.Machine.execSelinc s
  | .seldec => Sys2Proof.Machine.execSeldec s
  | .wait n => Sys2Proof.Machine.execWait n s
  | .step => Sys2Proof.Machine.execStep s

end Sys2Proof.Machine
end

