-- ==== Sys2Proof/Machine/Step.lean ====
section
/-! DEFINITION. One step of the CORE: fetch the command at `pc` and execute it. -/

namespace Sys2Proof.Machine

/-- One command (30_encoding.md R70, 20_memory.md R62): what the fetch answers, or the fetched command's effect. -/
def step (s : State) : Host.Outcome State Fault Refusal :=
  match s.fetch with
  | .ok i => exec i s
  | .error o => o

/-- The state with a table word placed in the stream at `pc`, where `step` fetches; nothing else changes. -/
def State.withFetchWord (s : State) (nbits w : Nat) : State := s.placeCommand s.pc (tableWord nbits w)

end Sys2Proof.Machine
end

