-- ==== Sys2Proof/Machine/Asm.lean ====
section
/-! DEFINITION. The assembler: one line of text to the commands it stands for (30_encoding.md R80, R81). Lines are
lists of characters. -/

namespace Sys2Proof.Asm

/-- Blank space between the parts of a line (log entry 17). -/
def isBlank (c : Char) : Bool := c = ' ' || c = '\t'

/-- A part of a line without the blanks around it. -/
def trim (l : List Char) : List Char := ((l.dropWhile isBlank).reverse.dropWhile isBlank).reverse

/-- The parts of a text between commas. -/
def splitCommas : List Char → List (List Char)
  | [] => [[]]
  | ',' :: rest => [] :: splitCommas rest
  | c :: rest =>
    match splitCommas rest with
    | part :: parts => (c :: part) :: parts
    | [] => [[c]]

/-- A digit's value in a base of at most 16. -/
def digitValue (base : Nat) (c : Char) : Option Nat :=
  let v := if '0' ≤ c ∧ c ≤ '9' then c.toNat - '0'.toNat
    else if 'a' ≤ c ∧ c ≤ 'f' then c.toNat - 'a'.toNat + 10
    else if 'A' ≤ c ∧ c ≤ 'F' then c.toNat - 'A'.toNat + 10
    else base
  if v < base then some v else none

/-- The number that a string of digits spells, the first the most significant. -/
def digits (base : Nat) : Nat → List Char → Option Nat
  | acc, [] => some acc
  | acc, c :: rest => (digitValue base c).bind fun v => digits base (acc * base + v) rest

/-- A number: decimal, or hexadecimal with `0x` (R80). -/
def number : List Char → Option Nat
  | [] => none
  | ['0', 'x'] => none
  | '0' :: 'x' :: rest => digits 16 0 rest
  | l => digits 10 0 l

/-- A colour: `#` and six hexadecimal digits (R80). -/
def colour : List Char → Option Pixel
  | '#' :: rest => if rest.length = 6 then (digits 16 0 rest).map (BitVec.ofNat 24) else none
  | _ => none

/-- A button: `inc` or `dec` (R80). -/
def button (l : List Char) : Option Button :=
  if l = ['i', 'n', 'c'] then some .inc else if l = ['d', 'e', 'c'] then some .dec else none

/-- The lines without operands, the pseudo-instructions among them (R80, R81). -/
def plain : List (String × Expansion) :=
  [ ("RENDERS", .finite [.renders]), ("EMIT", .finite [.emit]), ("BLINK", .finite [.blink]),
    ("SELINC", .finite [.selinc]), ("SELDEC", .finite [.seldec]), ("STEP", .finite [.step]),
    ("NOP", Pseudo.nop.expand), ("TICK", Pseudo.tick.expand), ("RUN", Pseudo.run.expand),
    ("RENDER.SEL", Pseudo.renderSel.expand) ]

/-- A command with its operands; one whose operand does not fit its field is refused (R80). -/
def command (mnemonic : List Char) (operands : List (List Char)) : Option Expansion :=
  let one (i : Option Instr) : Option Expansion :=
    i.bind fun i => if i.wellFormed then some (.finite [i]) else none
  match operands with
  | [] => (plain.find? fun p => p.1.toList = mnemonic).map Prod.snd
  | [x] =>
    if mnemonic = "FBREAD".toList then one ((number x).map .fbread)
    else if mnemonic = "POLL".toList then one ((button x).map .poll)
    else if mnemonic = "WAIT".toList then one ((number x).map .wait)
    else none
  | [x, y] =>
    if mnemonic = "LOOKUP".toList then one ((number x).bind fun d => (number y).map fun r => .lookup d r)
    else if mnemonic = "RENDER".toList then one ((number x).bind fun d => (colour y).map fun c => .render d c)
    else none
  | _ => none

/-- One line of assembler: a mnemonic, then operands separated by commas; `;` starts a comment. A line with nothing on
it stands for no command. -/
def line (l : List Char) : Option Expansion :=
  let text := trim (l.takeWhile (· ≠ ';'))
  let mnemonic := text.takeWhile fun c => !isBlank c
  let rest := trim (text.drop mnemonic.length)
  if text = [] then some (.finite [])
  else command mnemonic (if rest = [] then [] else (splitCommas rest).map trim)

/-- The words of a line that stands for finitely many commands. -/
def words (l : List Char) : Option (List Word) :=
  match line l with
  | some (.finite is) => some (is.map encode)
  | _ => none

end Sys2Proof.Asm
end

