-- ==== Sys2Proof/Machine/Strip.lean ====
section
/-! DEFINITION. What the strip driver sends for a frame (41_render.md R119): outside the CORE, a function of the
trace that no command reads. -/

namespace Sys2Proof.Machine

/-- The red channel of a pixel (10_state.md R27). -/
def red (p : Pixel) : BitVec 8 := p.extractLsb' 16 8

/-- The green channel of a pixel. -/
def green (p : Pixel) : BitVec 8 := p.extractLsb' 8 8

/-- The blue channel of a pixel. -/
def blue (p : Pixel) : BitVec 8 := p.extractLsb' 0 8

/-- A pixel's bytes on the wire: green, red, blue (R119, 20_memory.md R57). -/
def pixelBytes (p : Pixel) : List (BitVec 8) := [green p, red p, blue p]

/-- A frame's bytes on the wire, in index order (R119). -/
def wireBytes (f : Frame) : List (BitVec 8) := f.toList.flatMap pixelBytes

/-- A byte's bits on the wire, the most significant first (R119, PRESUMED there; log entry 16). -/
def byteBits (v : BitVec 8) : List Bool := [7, 6, 5, 4, 3, 2, 1, 0].map v.getLsbD

/-- A frame's bits on the wire. -/
def wireBits (f : Frame) : List Bool := (wireBytes f).flatMap byteBits

/-- The time of a frame's data on the wire in nanoseconds, before any latch gap (70_reset_and_hazards.md R202). -/
def frameDataNs : Nat := 25 * 24 * (1000000000 / Config.stripRateHz)

end Sys2Proof.Machine
end

