-- ==== Sys2Proof/Machine/View.lean ====
section
/-! DEFINITION. The host's read-only register view (10_state.md R38). -/

namespace Sys2Proof.Machine

/-- A register's value in the view, zero-extended to 32 bits (log entry 14). -/
def inView {n : Nat} (v : BitVec n) : Option (BitVec 32) := some (v.setWidth 32)

/-- A read of pixel i: no value while the FrameBuffer is unwritten (R41). -/
def State.viewPixel (s : State) (i : Nat) : Option (BitVec 32) :=
  s.fb.bind fun f => f[i]?.bind fun p => inView p

/-- A host read of a register number: none for a number that is not listed and for a register that is unwritten
(R38, R41). It is a function of the state, so it has no side effect. -/
def State.view (s : State) (number : Nat) : Option (BitVec 32) :=
  match number with
  | 0x00 => inView s.ph.code
  | 0x01 => inView s.now
  | 0x02 => inView s.digit
  | 0x03 => inView s.color
  | 0x04 => inView (BitVec.ofBool s.fbValid)
  | 0x05 => inView s.btnInc.state.code
  | 0x06 => inView s.btnDec.state.code
  | 0x07 => inView s.btnInc.t
  | 0x08 => inView s.btnDec.t
  | 0x09 => inView (s.btnWin .inc)
  | 0x0A => inView (BitVec.ofBool s.blinkOn)
  | 0x0B => inView s.blinkT
  | 0x0C => inView s.blinkWin
  | 0x0D => inView (BitVec.ofBool s.statusOut)
  | 0x0E => s.res.bind fun v => inView v
  | 0x0F => inView (BitVec.ofBool s.resValid)
  | 0x10 => inView s.fault.code
  | 0x11 => inView s.faultWord
  | n => if 0x20 ≤ n ∧ n ≤ 0x38 then s.viewPixel (n - 0x20) else none

end Sys2Proof.Machine
end

