-- ==== Sys2Proof/Safety.lean ====
section
/-! DEFINITION. What counts as a safe state and a safe run, and the run vocabulary that statements use. -/

namespace Sys2Proof.Machine

/-- The phases after the render of an iteration: in them a FrameBuffer has been written (43_blink_sched.md R160). -/
def Phase.afterRender : Phase → Bool
  | .blink => false
  | .render => false
  | .emit => true
  | .pollInc => true
  | .pollDec => true
  | .idle => true

/-- The invariant of the CORE's state: the selected digit is 0 to 9 (10_state.md R26), the colour is the initial one
(R27), the status output shows the blinker's flag (R34, 60_exceptions.md R182), no fault word is recorded without a fault
(R36), the phases after the render find a written FrameBuffer (43_blink_sched.md R160), and the command stream keeps its
canonical form. -/
structure State.Inv (s : State) : Prop where
  digit_range : s.digit.toNat ≤ 9
  color_fixed : s.color = Config.initialColor
  status_follows : s.statusOut = s.blinkOn
  no_stray_word : s.fault = .noFault → s.faultWord = 0#32
  rendered : s.ph.afterRender = true → s.fbValid = true
  stream_wf : Stream.wf s.stream = true

/-- The CORE is running: no fault is recorded (60_exceptions.md R172). -/
abbrev State.running (s : State) : Prop := s.fault = .noFault

/-- The command that a running state executes next, if its word spells one. -/
def State.nextCommand (s : State) : Option Instr :=
  if s.fault = .noFault then (decode s.commandWord).toOption else none

/-- The phase in which STEP polls button b. -/
def pollPhase : Button → Phase
  | .inc => .pollInc
  | .dec => .pollDec

/-- A command polls button b in this state. -/
def State.pollsWith (s : State) (b : Button) : Instr → Bool
  | .lookup _ _ => false
  | .render _ _ => false
  | .renders => false
  | .fbread _ => false
  | .emit => false
  | .blink => false
  | .poll b' => decide (b' = b)
  | .selinc => false
  | .seldec => false
  | .wait _ => false
  | .step => decide (s.ph = pollPhase b)

/-- The next command polls button b: POLL b, or STEP in the phase of that poll (43_blink_sched.md R160). -/
def State.polls (s : State) (b : Button) : Bool :=
  match s.nextCommand with
  | some i => s.pollsWith b i
  | none => false

/-- The next command accepts a press of button b (42_debounce_select.md R132, R135): it polls b, b is Idle or its window is
over, and its line is low. -/
def State.acceptsPress (s : State) (b : Button) : Bool :=
  s.polls b &&
    (decide ((s.btn b).state = .idle) || decide (Config.debounceMs ≤ (elapsed s.now (s.btn b).t).toNat)) &&
    decide (s.line b = .low)

/-- A command runs the blinker in this state: BLINK, or STEP in phase 0. -/
def State.blinksWith (s : State) : Instr → Bool
  | .lookup _ _ => false
  | .render _ _ => false
  | .renders => false
  | .fbread _ => false
  | .emit => false
  | .blink => true
  | .poll _ => false
  | .selinc => false
  | .seldec => false
  | .wait _ => false
  | .step => decide (s.ph = .blink)

/-- The next command toggles the blinker (43_blink_sched.md R150): it runs the blinker, with the interval over. -/
def State.toggles (s : State) : Bool :=
  (match s.nextCommand with
    | some i => s.blinksWith i
    | none => false) &&
    decide (Config.blinkMs ≤ (elapsed s.now s.blinkT).toNat)

/-- The time cost of a poll that may accept a press (42_debounce_select.md R134, R136). -/
def State.stall (s : State) (b : Button) : Nat :=
  if s.acceptsPress b = true ∧ s.debounceMode = .blocking then Config.debounceMs else 0

/-- The own time cost of the task that STEP dispatches in this state. -/
def State.taskCost (s : State) : Nat :=
  match s.ph with
  | .blink => 0
  | .render => 0
  | .emit => 0
  | .pollInc => s.stall .inc
  | .pollDec => s.stall .dec
  | .idle => Config.idleMs

/-- The own time cost of a command as 20_memory.md R55 lists it: n for WAIT n, DEBOUNCE_MS for a POLL that accepts a press
in BLOCKING mode, the cost of the dispatched task for STEP, 0 for every other command. -/
def State.costOf (s : State) : Instr → Nat
  | .lookup _ _ => 0
  | .render _ _ => 0
  | .renders => 0
  | .fbread _ => 0
  | .emit => 0
  | .blink => 0
  | .poll b => s.stall b
  | .selinc => 0
  | .seldec => 0
  | .wait n => n
  | .step => s.taskCost

/-- The own time cost of the next command. -/
def State.timeCost (s : State) : Nat :=
  match s.nextCommand with
  | some i => s.costOf i
  | none => 0

/-- The true time the next command takes, its cost and its draw δ, before any wrap (20_memory.md R55). -/
def State.timeSpent (s : State) : Nat := s.timeCost + s.delta

/-- `t` is reached from `s` by completed commands that take `T` milliseconds of true time together. -/
inductive Reaches (s : State) : Nat → State → Prop where
  | refl : Reaches s 0 s
  | tail {T : Nat} {t u : State} : Reaches s T t → step t = .next u → u.running → Reaches s (T + t.timeSpent) u

/-- `t` is reached from `s` by completed commands of which none toggles the blinker. -/
inductive ReachesUntoggled (s : State) : State → Prop where
  | refl : ReachesUntoggled s s
  | tail {t u : State} : ReachesUntoggled s t → t.toggles = false → step t = .next u → u.running → ReachesUntoggled s u

/-- The next `k` words of the stream are STEP (43_blink_sched.md R161). -/
def State.stepsAhead (s : State) (k : Nat) : Prop :=
  ∀ j, j < k → Stream.read s.stream (s.pc + j) = 0xB0000000#32

/-- `k` steps, stopping at the first fault or refusal. -/
def runSteps : Nat → State → Host.Outcome State Fault Refusal
  | 0, s => .next s
  | k + 1, s =>
    match step s with
    | .next t => runSteps k t
    | .fault r => .fault r
    | .refused r => .refused r

/-- The environment's draw for the j-th command from this state on, counted from 0. -/
def State.drawAhead (s : State) (j : Nat) : EnvDraw := (s.script[j]?).getD (Config.freeDraw (s.drawIx + j))

/-- The next `k` draws of the environment are all `d`. -/
def State.drawsAhead (s : State) (k : Nat) (d : EnvDraw) : Prop := ∀ j, j < k → s.drawAhead j = d

/-- `Render(digit, color)` of the selection registers, for a digit of 0 to 9 (41_render.md R111). -/
def State.selectedFrame (s : State) : Frame := render (Fin.ofNat 10 s.digit.toNat) s.color

/-- The operand of a command is outside its range (60_exceptions.md R170). -/
def outOfRange : Instr → Bool
  | .lookup d r => decide (9 < d) || decide (4 < r)
  | .render d _ => decide (9 < d)
  | .renders => false
  | .fbread i => decide (24 < i)
  | .emit => false
  | .blink => false
  | .poll _ => false
  | .selinc => false
  | .seldec => false
  | .wait _ => false
  | .step => false

/-- The command reads the FrameBuffer in this state: FBREAD, EMIT, or STEP in phase 2 (60_exceptions.md R170). -/
def State.readsFb (s : State) : Instr → Bool
  | .lookup _ _ => false
  | .render _ _ => false
  | .renders => false
  | .fbread _ => true
  | .emit => true
  | .blink => false
  | .poll _ => false
  | .selinc => false
  | .seldec => false
  | .wait _ => false
  | .step => decide (s.ph = .emit)

/-- The words of an opcode (30_encoding.md R72, R74): those that agree with `matchWord` under `mask` spell the command that
`f` reads from their bits, and those of the opcode that do not spell none. -/
def Spells (opcode : Nat) (matchWord mask : Word) (f : Word → Instr) : Prop :=
  ∀ w : Word,
    (w &&& mask = matchWord → decode w = .ok (f w)) ∧
    (bits w 28 4 = opcode → w &&& mask ≠ matchWord → decode w = .error .reservedBits)

/-- The environment of ideal timing with no press: both lines high and δ = 0 (43_blink_sched.md R166). -/
def idealDraw : EnvDraw := ⟨.high, .high, 0⟩

/-- Ideal timing with the increment button held and the decrement button released (42_debounce_select.md R139). -/
def heldIncDraw : EnvDraw := ⟨.low, .high, 0⟩

/-- The start of an iteration in BLOCKING mode whose poll of the increment button accepts a pressed sample: the button is
Idle, or its window is over (42_debounce_select.md R135, 43_blink_sched.md R161). -/
structure State.HeldReady (s : State) : Prop where
  inv : s.Inv
  running : s.running
  phase : s.ph = .blink
  blocking : s.debounceMode = .blocking
  ready : s.btnInc.state = .idle ∨ Config.debounceMs ≤ (elapsed s.now s.btnInc.t).toNat

/-- The registers right after reset, with any stream, any draws and either mode, which reset does not decide
(70_reset_and_hazards.md R190). -/
def State.fromReset (m : Stream) (ds : List EnvDraw) (n : Nat) (mode : DebounceMode) : State :=
  { State.reset with stream := m, script := ds, drawIx := n, debounceMode := mode }

end Sys2Proof.Machine
end

