-- ==== Sys2Proof/Certificates/Slice0/Obligations.lean ====
section
/-! DEFINITION. The statements for the provers. A statement of a result writes out the whole next state, so it is the
command's frame too: every register, the trace, the FrameBuffer and every word of the stream that it does not name are as
before. `s.delta` is the draw δ of the command and `s.draw` its sampled lines; both are the environment's, and a statement
holds for every value of them. -/

open Sys2Proof Sys2Proof.Machine

/-! ### Results and frames, command by command -/

/-- R100: LOOKUP d, r writes the mask `PATTERN_ROM[d][r]`, zero-extended, into `res`; a digit above 9 or a row above 4
raises RANGE_VIOLATION. -/
def Obligations.LookupReadsRomRow : Prop :=
  Spells 0x1 0x10000000#32 0xFFFFFF00#32 (fun w => .lookup (w.toNat % 16) (w.toNat / 16 % 16)) ∧
  ∀ (d r : Nat) (s : State),
    (∀ (hd : d ≤ 9) (hr : r ≤ 4),
      exec (.lookup d r) s = .next { s with
        res := some ((Config.patternRom ⟨d, by omega⟩ ⟨r, by omega⟩).setWidth 24)
        pc := s.pc + 1, now := s.now + BitVec.ofNat 32 s.delta
        script := s.script.tail, drawIx := s.drawIx + 1 }) ∧
    (9 < d ∨ 4 < r →
      exec (.lookup d r) s = .next { s with
        fault := .rangeViolation, faultWord := BitVec.ofNat 32 (0x10000000 + r * 16 + d) })

/-- R110: RENDER d, c writes all 25 pixels, `c` where the cell is lit and off elsewhere, whatever the FrameBuffer held; a
digit above 9 raises RANGE_VIOLATION. RENDER has no reserved bits. -/
def Obligations.RenderFillsFrameBuffer : Prop :=
  Spells 0x2 0x20000000#32 0xF0000000#32
    (fun w => .render (w.toNat / 2 ^ 24 % 16) (BitVec.ofNat 24 (w.toNat % 2 ^ 24))) ∧
  (∀ w : Word, bits w 28 4 = 0x2 → ∃ i, decode w = .ok i) ∧
  ∀ (d : Nat) (c : Pixel) (s : State),
    (∀ hd : d ≤ 9, ∃ f : Frame,
      exec (.render d c) s = .next { s with
        fb := some f
        pc := s.pc + 1, now := s.now + BitVec.ofNat 32 s.delta
        script := s.script.tail, drawIx := s.drawIx + 1 } ∧
      ∀ row col : Fin 5, f[row.val * 5 + col.val]'(by omega) =
        if (Config.patternRom ⟨d, by omega⟩ row).getLsbD (4 - col.val) then c else 0x000000#24) ∧
    (9 < d →
      exec (.render d c) s = .next { s with
        fault := .rangeViolation, faultWord := BitVec.ofNat 32 (0x20000000 + d * 2 ^ 24 + c.toNat) })

/-- R112: RENDERS fills the FrameBuffer with `Render(digit, color)` and changes neither. -/
def Obligations.RendersFillsFromSelection : Prop :=
  Spells 0x3 0x30000000#32 0xFFFFFFFF#32 (fun _ => .renders) ∧
  ∀ (s : State) (hd : s.digit.toNat ≤ 9),
    exec .renders s = .next { s with
      fb := some (render ⟨s.digit.toNat, by omega⟩ s.color)
      pc := s.pc + 1, now := s.now + BitVec.ofNat 32 s.delta
      script := s.script.tail, drawIx := s.drawIx + 1 }

/-- R115: FBREAD i reads pixel i into `res`; an index above 24 raises RANGE_VIOLATION, else an unwritten FrameBuffer raises
UNWRITTEN_READ. -/
def Obligations.FbreadReadsPixel : Prop :=
  Spells 0x4 0x40000000#32 0xFFFFFFE0#32 (fun w => .fbread (w.toNat % 32)) ∧
  ∀ (i : Nat) (s : State),
    (∀ (hi : i ≤ 24) (f : Frame), s.fb = some f →
      exec (.fbread i) s = .next { s with
        res := some (f[i]'(by omega))
        pc := s.pc + 1, now := s.now + BitVec.ofNat 32 s.delta
        script := s.script.tail, drawIx := s.drawIx + 1 }) ∧
    (24 < i →
      exec (.fbread i) s = .next { s with
        fault := .rangeViolation, faultWord := BitVec.ofNat 32 (0x40000000 + i) }) ∧
    (i ≤ 24 → s.fb = none →
      exec (.fbread i) s = .next { s with
        fault := .unwrittenRead, faultWord := BitVec.ofNat 32 (0x40000000 + i) })

/-- R117: EMIT appends the 25 pixels, in index order, to the strip output trace; an unwritten FrameBuffer raises
UNWRITTEN_READ. -/
def Obligations.EmitAppendsFrame : Prop :=
  Spells 0x5 0x50000000#32 0xFFFFFFFF#32 (fun _ => .emit) ∧
  ∀ s : State,
    (∀ f : Frame, s.fb = some f →
      exec .emit s = .next { s with
        trace := s.trace ++ [f]
        pc := s.pc + 1, now := s.now + BitVec.ofNat 32 s.delta
        script := s.script.tail, drawIx := s.drawIx + 1 }) ∧
    (s.fb = none →
      exec .emit s = .next { s with fault := .unwrittenRead, faultWord := 0x50000000#32 })

/-- R150: BLINK inverts the flag and records the current time when at least 100 ms have passed since the last toggle, and
drives the status output with the flag either way. -/
def Obligations.BlinkTogglesWhenDue : Prop :=
  Spells 0x6 0x60000000#32 0xFFFFFFFF#32 (fun _ => .blink) ∧
  ∀ s : State,
    (100 ≤ (s.now - s.blinkT).toNat →
      exec .blink s = .next { s with
        blinkOn := !s.blinkOn, blinkT := s.now, statusOut := !s.blinkOn
        pc := s.pc + 1, now := s.now + BitVec.ofNat 32 s.delta
        script := s.script.tail, drawIx := s.drawIx + 1 }) ∧
    ((s.now - s.blinkT).toNat < 100 →
      exec .blink s = .next { s with
        statusOut := s.blinkOn
        pc := s.pc + 1, now := s.now + BitVec.ofNat 32 s.delta
        script := s.script.tail, drawIx := s.drawIx + 1 })

/-- R130: POLL b runs button b's debounce machine once on its sampled line. -/
def Obligations.PollRunsDebounceMachine : Prop :=
  Spells 0x7 0x70000000#32 0xFFFFFFFE#32 (fun w => .poll (if w.toNat % 2 = 0 then .inc else .dec)) ∧
  (∀ s : State,
    (s.btnInc.state = .idle ∨ 200 ≤ (s.now - s.btnInc.t).toNat → s.draw.btnIncN = .low →
      exec (.poll .inc) s = .next { s with
        btnInc := ⟨.suppressed, s.now⟩, digit := BitVec.ofNat 4 ((s.digit.toNat + 1) % 10), res := some 1#24
        now := s.now + BitVec.ofNat 32 ((if s.debounceMode = .blocking then 200 else 0) + s.delta)
        pc := s.pc + 1, script := s.script.tail, drawIx := s.drawIx + 1 }) ∧
    (s.btnInc.state = .idle ∨ 200 ≤ (s.now - s.btnInc.t).toNat → s.draw.btnIncN = .high →
      exec (.poll .inc) s = .next { s with
        btnInc := ⟨.idle, s.btnInc.t⟩, res := some 0#24
        pc := s.pc + 1, now := s.now + BitVec.ofNat 32 s.delta
        script := s.script.tail, drawIx := s.drawIx + 1 }) ∧
    (s.btnInc.state = .suppressed → (s.now - s.btnInc.t).toNat < 200 →
      exec (.poll .inc) s = .next { s with
        res := some 0#24
        pc := s.pc + 1, now := s.now + BitVec.ofNat 32 s.delta
        script := s.script.tail, drawIx := s.drawIx + 1 })) ∧
  (∀ s : State,
    (s.btnDec.state = .idle ∨ 200 ≤ (s.now - s.btnDec.t).toNat → s.draw.btnDecN = .low →
      exec (.poll .dec) s = .next { s with
        btnDec := ⟨.suppressed, s.now⟩, digit := BitVec.ofNat 4 ((s.digit.toNat + 9) % 10), res := some 1#24
        now := s.now + BitVec.ofNat 32 ((if s.debounceMode = .blocking then 200 else 0) + s.delta)
        pc := s.pc + 1, script := s.script.tail, drawIx := s.drawIx + 1 }) ∧
    (s.btnDec.state = .idle ∨ 200 ≤ (s.now - s.btnDec.t).toNat → s.draw.btnDecN = .high →
      exec (.poll .dec) s = .next { s with
        btnDec := ⟨.idle, s.btnDec.t⟩, res := some 0#24
        pc := s.pc + 1, now := s.now + BitVec.ofNat 32 s.delta
        script := s.script.tail, drawIx := s.drawIx + 1 }) ∧
    (s.btnDec.state = .suppressed → (s.now - s.btnDec.t).toNat < 200 →
      exec (.poll .dec) s = .next { s with
        res := some 0#24
        pc := s.pc + 1, now := s.now + BitVec.ofNat 32 s.delta
        script := s.script.tail, drawIx := s.drawIx + 1 }))

/-- R140: SELINC applies `(digit + 1) mod 10` and touches no button and no result. -/
def Obligations.SelincIncrementsDigit : Prop :=
  Spells 0x8 0x80000000#32 0xFFFFFFFF#32 (fun _ => .selinc) ∧
  ∀ s : State, exec .selinc s = .next { s with
    digit := BitVec.ofNat 4 ((s.digit.toNat + 1) % 10)
    pc := s.pc + 1, now := s.now + BitVec.ofNat 32 s.delta
    script := s.script.tail, drawIx := s.drawIx + 1 }

/-- R142: SELDEC applies `(digit + 9) mod 10`. -/
def Obligations.SeldecDecrementsDigit : Prop :=
  Spells 0x9 0x90000000#32 0xFFFFFFFF#32 (fun _ => .seldec) ∧
  ∀ s : State, exec .seldec s = .next { s with
    digit := BitVec.ofNat 4 ((s.digit.toNat + 9) % 10)
    pc := s.pc + 1, now := s.now + BitVec.ofNat 32 s.delta
    script := s.script.tail, drawIx := s.drawIx + 1 }

/-- R155: WAIT n advances `now` by n (and by δ) and `pc`, and nothing else. -/
def Obligations.WaitAdvancesTime : Prop :=
  Spells 0xA 0xA0000000#32 0xFFFF0000#32 (fun w => .wait (w.toNat % 65536)) ∧
  ∀ (n : Nat) (s : State), exec (.wait n) s = .next { s with
    pc := s.pc + 1, now := s.now + BitVec.ofNat 32 (n + s.delta)
    script := s.script.tail, drawIx := s.drawIx + 1 }

/-- R160: STEP does what the command of its phase does alone, but for `res`, which it leaves, and `ph`, which it moves to
the next phase: BLINK, RENDERS, EMIT, POLL inc, POLL dec, WAIT 100 in phases 0 to 5. With a selected digit of 0 to 9 it always
does so but in phase 2 with an unwritten FrameBuffer, which raises UNWRITTEN_READ. -/
def Obligations.StepDispatchesPhaseTask : Prop :=
  Spells 0xB 0xB0000000#32 0xFFFFFFFF#32 (fun _ => .step) ∧
  ∀ s : State, s.digit.toNat ≤ 9 →
    (s.ph = .blink → ∃ t, exec .blink s = .next t ∧
      exec .step s = .next { t with ph := .render }) ∧
    (s.ph = .render → ∃ t, exec .renders s = .next t ∧ t.fbValid = true ∧
      exec .step s = .next { t with ph := .emit }) ∧
    (s.ph = .emit → ∀ f, s.fb = some f → ∃ t, exec .emit s = .next t ∧ t.trace = s.trace ++ [f] ∧
      exec .step s = .next { t with ph := .pollInc }) ∧
    (s.ph = .emit → s.fb = none →
      exec .step s = .next { s with fault := .unwrittenRead, faultWord := 0xB0000000#32 }) ∧
    (s.ph = .pollInc → ∃ t, exec (.poll .inc) s = .next t ∧
      exec .step s = .next { t with ph := .pollDec, res := s.res }) ∧
    (s.ph = .pollDec → ∃ t, exec (.poll .dec) s = .next t ∧
      exec .step s = .next { t with ph := .idle, res := s.res }) ∧
    (s.ph = .idle → exec .step s = .next { s with
      ph := .blink
      pc := s.pc + 1, now := s.now + BitVec.ofNat 32 (100 + s.delta)
      script := s.script.tail, drawIx := s.drawIx + 1 })

/-- The model's reading of 20_memory.md R58 in states that no run reaches (log entry 11): a digit register above 9 makes
RENDERS, and STEP in phase 1, raise RANGE_VIOLATION. -/
def Obligations.RenderOfBadDigitFaults : Prop :=
  ∀ s : State, 9 < s.digit.toNat →
    exec .renders s = .next { s with fault := .rangeViolation, faultWord := 0x30000000#32 } ∧
    (s.ph = .render → exec .step s = .next { s with fault := .rangeViolation, faultWord := 0xB0000000#32 })

/-- `exec` answers a next state for every command in every state: no command stops the model. -/
def Obligations.ExecAlwaysAnswersNext : Prop :=
  ∀ (i : Instr) (s : State), ∃ t, exec i s = .next t

/-! ### The rasterizer, the Pattern ROM and the strip -/

/-- R111: pixel i of `Render(d, c)` is `c` when bit `4 - (i mod 5)` of `PATTERN_ROM[d][i div 5]` is 1 and off otherwise, and
RENDER's algorithm, row by row over 25 off pixels, computes it. -/
def Obligations.RasterLoopMatchesClosedForm : Prop :=
  ∀ (d : Fin 10) (c : Pixel),
    (∀ i : Fin 25, (render d c)[i] =
      if (Config.patternRom d ⟨i.val / 5, by omega⟩).getLsbD (4 - i.val % 5) then c else 0x000000#24) ∧
    raster d c = render d c

/-- R113: two RENDERs of the same digit and colour, from any two states, leave the same FrameBuffer, and so does a second
one after the first. -/
def Obligations.RenderIsPureAndIdempotent : Prop :=
  ∀ (d : Nat) (c : Pixel) (s s' t t' u : State), d ≤ 9 →
    exec (.render d c) s = .next t → exec (.render d c) s' = .next t' → exec (.render d c) t = .next u →
      t.fbValid = true ∧ t'.fb = t.fb ∧ u.fb = t.fb

/-- R50 and R101 (in part): the ROM address of digit and row is `digit * 5 + row`, a read of it gives `PATTERN_ROM[digit][row]`,
and digit 3 holds 0x1F, 0x01, 0x1F, 0x01, 0x1F. -/
def Obligations.RomReadsMasks : Prop :=
  (∀ (d : Fin 10) (r : Fin 5),
    (romAddress d r).val = d.val * 5 + r.val ∧ romRead (romAddress d r) = Config.patternRom d r) ∧
  (Config.patternRom 3 0 = 0x1F#5 ∧ Config.patternRom 3 1 = 0x01#5 ∧ Config.patternRom 3 2 = 0x1F#5 ∧
    Config.patternRom 3 3 = 0x01#5 ∧ Config.patternRom 3 4 = 0x1F#5)

/-- R116: index and coordinates convert both ways. -/
def Obligations.PixelIndexConverts : Prop :=
  (∀ i : Fin 25, (pixelRow i).val = i.val / 5 ∧ (pixelColumn i).val = i.val % 5 ∧
    pixelIndex (pixelRow i) (pixelColumn i) = i) ∧
  (∀ row col : Fin 5, (pixelIndex row col).val = row.val * 5 + col.val ∧
    pixelRow (pixelIndex row col) = row ∧ pixelColumn (pixelIndex row col) = col) ∧
  pixelIndex 0 0 = 0 ∧ pixelIndex 4 4 = 24

/-- R118: the trace is empty at reset; a step leaves it or appends one frame, the FrameBuffer, and it appends exactly when the
command is EMIT, or STEP in phase 2, and raises no fault. -/
def Obligations.TraceGrowsOnlyByEmission : Prop :=
  State.reset.trace = [] ∧
  ∀ s t : State, step s = .next t →
    (t.trace = s.trace ∨ ∃ f, s.fb = some f ∧ t.trace = s.trace ++ [f]) ∧
    (t.trace ≠ s.trace ↔
      t.running ∧ (s.nextCommand = some .emit ∨ (s.nextCommand = some .step ∧ s.ph = .emit)))

/-- R119 (its byte order): a frame goes out as 75 bytes, pixel by pixel in index order, green then red then blue. -/
def Obligations.WireOrderIsGreenRedBlue : Prop :=
  ∀ (f : Frame) (i : Fin 25),
    (wireBytes f).length = 75 ∧
    (wireBytes f)[3 * i.val]? = some (f[i].extractLsb' 8 8) ∧
    (wireBytes f)[3 * i.val + 1]? = some (f[i].extractLsb' 16 8) ∧
    (wireBytes f)[3 * i.val + 2]? = some (f[i].extractLsb' 0 8)

/-! ### Encoding -/

/-- Decoding a well-formed command's word gives the command back, every operand at every value its field admits. -/
def Obligations.DecodeOfEncode : Prop :=
  ∀ i : Instr, i.WellFormed → decode (encode i) = .ok i

/-- A word that decodes spells a well-formed command, and that command's word is the word: each command has one word. -/
def Obligations.EncodeOfDecode : Prop :=
  ∀ (w : Word) (i : Instr), decode w = .ok i → i.WellFormed ∧ encode i = w

/-- R77: every word is a command or illegal; a word selects an opcode's command exactly when it agrees with the map's match
under its mask; a reserved opcode is refused as such whatever the other bits, and then reserved bits are checked. Operand
ranges are not. -/
def Obligations.DecodeFollowsOpcodeMap : Prop :=
  ∀ w : Word,
    (∀ row ∈ opcodeMap, (w &&& row.mask = row.matchWord ↔ ∃ i, decode w = .ok i ∧ i.opcode = row.opcode)) ∧
    (decode w = .error .reservedOpcode ↔ bits w 28 4 = 0 ∨ 12 ≤ bits w 28 4) ∧
    (decode w = .error .reservedBits ↔
      ∃ row ∈ opcodeMap, bits w 28 4 = row.opcode ∧ w &&& row.mask ≠ row.matchWord)

/-- R74: a word of a defined opcode with a 1 in a reserved bit raises ILLEGAL_COMMAND. -/
def Obligations.ReservedBitsAreIllegal : Prop :=
  ∀ s : State, s.running →
    (∃ row ∈ opcodeMap, bits s.commandWord 28 4 = row.opcode ∧ s.commandWord &&& row.mask ≠ row.matchWord) →
    step s = .next { s with fault := .illegalCommand, faultWord := s.commandWord }

/-- R75: a word of opcode 0x0 or 0xC to 0xF raises ILLEGAL_COMMAND, whatever its other bits, the all-zero word among them;
and the only word that does nothing but advance `pc` and pass the time δ in every state is WAIT 0. -/
def Obligations.ReservedOpcodesAreIllegal : Prop :=
  (∀ s : State, s.running → (bits s.commandWord 28 4 = 0 ∨ 12 ≤ bits s.commandWord 28 4) →
    step s = .next { s with fault := .illegalCommand, faultWord := s.commandWord }) ∧
  (∀ s : State, s.running → s.commandWord = 0x00000000#32 →
    step s = .next { s with fault := .illegalCommand, faultWord := 0x00000000#32 }) ∧
  (∀ w : Word,
    (∀ s : State, s.running → s.commandWord = w → step s = .next { s with
      pc := s.pc + 1, now := s.now + BitVec.ofNat 32 s.delta
      script := s.script.tail, drawIx := s.drawIx + 1 }) ↔ w = 0xA0000000#32)

/-- Words of the spec's vectors (95_test_vectors.md) decode to the commands they stand for. -/
def Obligations.SpelledWordsDecode : Prop :=
  decode 0x10000013#32 = .ok (.lookup 3 1) ∧ decode 0x2300FF00#32 = .ok (.render 3 0x00FF00#24) ∧
  decode 0x30000000#32 = .ok .renders ∧ decode 0x40000018#32 = .ok (.fbread 24) ∧
  decode 0x50000000#32 = .ok .emit ∧ decode 0x60000000#32 = .ok .blink ∧
  decode 0x70000001#32 = .ok (.poll .dec) ∧ decode 0x80000000#32 = .ok .selinc ∧
  decode 0x90000000#32 = .ok .seldec ∧ decode 0xA0000064#32 = .ok (.wait 100) ∧
  decode 0xB0000000#32 = .ok .step ∧ decode 0x10000103#32 = .error .reservedBits ∧
  decode 0xFFFFFFFF#32 = .error .reservedOpcode

/-- R80 and R81 on one line of each kind: the assembler's text spells the table's words, expands the pseudo-instructions, and
refuses an operand that does not fit its field. Where blanks may stand in a line, before the comment mark among them, is the
model's choice, log entry 17; every letter is in the case in which the spec writes it. -/
def Obligations.AssemblerSpellsWords : Prop :=
  Asm.words "LOOKUP 3, 1 ; row 1".toList = some [0x10000013#32] ∧
  Asm.words "RENDER 3, #00FF00".toList = some [0x2300FF00#32] ∧
  Asm.words "POLL dec".toList = some [0x70000001#32] ∧
  Asm.words "WAIT 0xFFFF".toList = some [0xA000FFFF#32] ∧
  Asm.words "WAIT 65536".toList = none ∧
  Asm.words "LOOKUP 16, 0".toList = none ∧
  Asm.words "FBREAD 32".toList = none ∧
  Asm.words "FBREAD 31".toList = some [0x4000001F#32] ∧
  Asm.words "NOP".toList = some [0xA0000000#32] ∧
  Asm.words "TICK".toList = some (List.replicate 6 0xB0000000#32) ∧
  Asm.line "RUN".toList = some (.forever .step) ∧
  Asm.words "RENDER.SEL".toList = some [0x30000000#32]

/-! ### Fetch, completion and faults -/

/-- When the word at `pc` of a running CORE decodes to a command, a step is that command's `exec`, with nothing added. -/
def Obligations.StepRunsDecodedCommand : Prop :=
  ∀ (s : State) (i : Instr), s.running → decode (Stream.read s.stream s.pc) = .ok i → step s = exec i s

/-- R21 and R55: a completed command adds 1 to `pc` and its own cost and δ to `now`, modulo 2^32; a command that faults changes
neither; and δ has no bound. -/
def Obligations.CompletedCommandAdvancesPcAndTime : Prop :=
  State.reset.pc = 0 ∧
  (∀ s t : State, step s = .next t →
    (t.running → t.pc = s.pc + 1 ∧ t.now.toNat = (s.now.toNat + s.timeCost + s.delta) % 2 ^ 32) ∧
    (¬ t.running → t.pc = s.pc ∧ t.now = s.now)) ∧
  (∀ (s : State) (l l' : Level) (n : Nat), (s.scriptDraws [⟨l, l', n⟩]).delta = n)

/-- R171: a command that raises a fault writes the code and the command word into the two fault registers and changes nothing
else. -/
def Obligations.FaultEntryWritesOnlyFaultRegisters : Prop :=
  ∀ s t : State, step s = .next t → ¬ t.running →
    t = { s with fault := t.fault, faultWord := Stream.read s.stream s.pc }

/-- R170 and R173: each fault has exactly its cause, and an illegal word is reported before an operand out of range, and that
before an unwritten read. The digit's range is an invariant of the machine (`StepKeepsInvariant`). -/
def Obligations.FaultsHaveTheirCauses : Prop :=
  ∀ s t : State, s.digit.toNat ≤ 9 → step s = .next t →
    (t.fault = .illegalCommand ↔ ∃ e, decode s.commandWord = .error e) ∧
    (t.fault = .rangeViolation ↔ ∃ i, decode s.commandWord = .ok i ∧ outOfRange i = true) ∧
    (t.fault = .unwrittenRead ↔
      ∃ i, decode s.commandWord = .ok i ∧ outOfRange i = false ∧ s.readsFb i = true ∧ s.fb = none) ∧
    (t.fault ≠ .noFault → t.faultWord = s.commandWord) ∧
    (t.fault = .noFault → t.faultWord = s.faultWord)

/-- R174: once a fault is recorded no step has a next state, so nothing overwrites it; the model stops, naming the code. -/
def Obligations.StoppedCoreExecutesNothing : Prop :=
  ∀ s : State, s.fault ≠ .noFault →
    step s = .fault (.stopped s.fault) ∧ (∀ t, step s ≠ .next t) ∧
    ∀ k, runSteps (k + 1) s = .fault (.stopped s.fault)

/-- R41: with nothing rendered since reset, every read of the FrameBuffer raises UNWRITTEN_READ, and the host reads no value
from a pixel; and it reads none from an unwritten `res`. -/
def Obligations.UnwrittenStateHoldsNoValue : Prop :=
  ∀ s : State,
    (s.fb = none →
      (∀ i, i ≤ 24 → exec (.fbread i) s = .next { s with
        fault := .unwrittenRead, faultWord := BitVec.ofNat 32 (0x40000000 + i) }) ∧
      exec .emit s = .next { s with fault := .unwrittenRead, faultWord := 0x50000000#32 } ∧
      (s.ph = .emit → exec .step s = .next { s with fault := .unwrittenRead, faultWord := 0xB0000000#32 }) ∧
      ∀ i, i ≤ 24 → s.view (0x20 + i) = none) ∧
    (s.res = none → s.view 0x0E = none)

/-! ### Who writes what -/

/-- 10_state.md R22, the "written by" column: what each command leaves unchanged, register by register, over all commands. -/
def Obligations.RegistersChangeOnlyByTheirWriters : Prop :=
  ∀ (i : Instr) (s t : State), exec i s = .next t →
    (t.ph ≠ s.ph → i = .step) ∧
    (t.digit ≠ s.digit → (∃ b, i = .poll b) ∨ i = .selinc ∨ i = .seldec ∨
      (i = .step ∧ (s.ph = .pollInc ∨ s.ph = .pollDec))) ∧
    t.color = s.color ∧
    (t.fb ≠ s.fb → (∃ d c, i = .render d c) ∨ i = .renders ∨ (i = .step ∧ s.ph = .render)) ∧
    (s.fbValid = true → t.fbValid = true) ∧
    (t.btnInc ≠ s.btnInc → i = .poll .inc ∨ (i = .step ∧ s.ph = .pollInc)) ∧
    (t.btnDec ≠ s.btnDec → i = .poll .dec ∨ (i = .step ∧ s.ph = .pollDec)) ∧
    (t.blinkOn ≠ s.blinkOn ∨ t.blinkT ≠ s.blinkT ∨ t.statusOut ≠ s.statusOut →
      i = .blink ∨ (i = .step ∧ s.ph = .blink)) ∧
    (t.res ≠ s.res → (∃ d r, i = .lookup d r) ∨ (∃ n, i = .fbread n) ∨ ∃ b, i = .poll b) ∧
    (t.trace ≠ s.trace → i = .emit ∨ (i = .step ∧ s.ph = .emit)) ∧
    t.stream = s.stream ∧ t.debounceMode = s.debounceMode

/-- R23: `ph` is 0 to 5, 0 at reset; STEP moves it to `(ph + 1) mod 6`, or raises a fault, which discards every other effect
(R171); no other command reads it or writes it. -/
def Obligations.PhaseBelongsToStep : Prop :=
  State.reset.ph.code = 0#3 ∧
  (∀ p : Phase, p.code.toNat ≤ 5 ∧ p.next.code.toNat = (p.code.toNat + 1) % 6) ∧
  (∀ s t : State, exec .step s = .next t →
    (t.ph = s.ph.next ∧ t.fault = s.fault) ∨ ∃ k : FaultKind, t = s.raise k 0xB0000000#32) ∧
  ∀ (i : Instr) (s t : State) (p : Phase), i ≠ .step → exec i s = .next t →
    t.ph = s.ph ∧ exec i { s with ph := p } = .next { t with ph := p }

/-! ### Buttons, selection and time -/

/-- R54: `elapsed` of a time from itself is 0, and of a time n ms later is n, across the wrap too. -/
def Obligations.ElapsedMeasuresAcrossWrap : Prop :=
  (∀ a : Time, (elapsed a a).toNat = 0) ∧
  (∀ (b : Time) (n : Nat), n < 2 ^ 32 → (elapsed (advance b n) b).toNat = n) ∧
  (∀ (b : Time) (n : Nat), (elapsed (advance b n) b).toNat = n % 2 ^ 32)

/-- R141 and R144: the selection transitions on 0 to 9 and their wrap laws. -/
def Obligations.SelectionWrapsModuloTen : Prop :=
  (∀ d : BitVec 4, d.toNat ≤ 9 →
    (incDigit d).toNat = (d.toNat + 1) % 10 ∧ (decDigit d).toNat = (d.toNat + 9) % 10 ∧
    incDigit (decDigit d) = d ∧ decDigit (incDigit d) = d ∧
    Nat.iterate incDigit 10 d = d) ∧
  decDigit 0#4 = 9#4 ∧ incDigit 9#4 = 0#4 ∧ Nat.iterate incDigit 12 0#4 = 2#4

/-- R132, R133 and R135, for every command that polls button b (POLL b, or STEP in its phase): an Idle button accepts a low
line and ignores a high one; a Suppressed one ignores everything inside the window, and after it returns to Idle and treats the
sample in the same poll; an accepted press records the start time and changes the digit; and Suppressed is entered no other
way. -/
def Obligations.DebounceMachineOfEveryPoll : Prop :=
  ∀ (s t : State) (b : Button), step s = .next t →
    (s.polls b = true →
      (((s.btn b).state = .idle ∨ Config.debounceMs ≤ (elapsed s.now (s.btn b).t).toNat) →
        (s.line b = .low → t.btn b = ⟨.suppressed, s.now⟩ ∧
          t.digit.toNat = (s.digit.toNat + (if b = .inc then 1 else 9)) % 10) ∧
        (s.line b = .high → t.btn b = ⟨.idle, (s.btn b).t⟩ ∧ t.digit = s.digit)) ∧
      ((s.btn b).state = .suppressed → (elapsed s.now (s.btn b).t).toNat < Config.debounceMs →
        t.btn b = s.btn b ∧ t.digit = s.digit)) ∧
    ((s.btn b).state = .idle → (t.btn b).state = .suppressed → s.acceptsPress b = true) ∧
    (t.btn b ≠ s.btn b → s.polls b = true)

/-- R134 and R136: an accepted press takes DEBOUNCE_MS of time in BLOCKING mode, before anything else runs, and none in
TIMESTAMPED mode; any other poll takes none in either. -/
def Obligations.PressStallsOnlyInBlockingMode : Prop :=
  ∀ (s t : State) (b : Button), s.polls b = true → step s = .next t →
    (s.acceptsPress b = true → s.debounceMode = .blocking →
      t.now = s.now + BitVec.ofNat 32 (Config.debounceMs + s.delta)) ∧
    (s.acceptsPress b = true → s.debounceMode = .timestamped → t.now = s.now + BitVec.ofNat 32 s.delta) ∧
    (s.acceptsPress b = false → t.now = s.now + BitVec.ofNat 32 s.delta)

/-- R137 (its first sentence): a POLL of one button neither reads nor writes the other's registers or line. -/
def Obligations.ButtonsAreIndependent : Prop :=
  ∀ (s t : State) (r : ButtonRegs) (d : EnvDraw) (ds : List EnvDraw) (l : Level), s.script = d :: ds →
    (exec (.poll .inc) s = .next t →
      exec (.poll .inc) { s with btnDec := r, script := { d with btnDecN := l } :: ds } = .next { t with btnDec := r }) ∧
    (exec (.poll .dec) s = .next t →
      exec (.poll .dec) { s with btnInc := r, script := { d with btnIncN := l } :: ds } = .next { t with btnInc := r })

/-- R138: two accepted presses of one button are never closer together than the debounce window, while the true gap is below
2^32 ms, whatever commands run between them. -/
def Obligations.PressesKeepTheWindowApart : Prop :=
  ∀ (b : Button) (s1 s2 s3 : State) (T : Nat),
    s1.acceptsPress b = true → step s1 = .next s2 → Reaches s2 T s3 → s3.acceptsPress b = true →
    s1.timeSpent + T < 2 ^ 32 → Config.debounceMs ≤ (elapsed s3.now s1.now).toNat

/-- R152: a step inverts the flag exactly when it toggles, once; two toggles with none between them are never closer than
BLINK_MS, whatever time passes between them, since `blink_t` is then the first one's time; and so are any two toggles while the
true gap is below 2^32 ms, where R197 says that a gap is seen whole. -/
def Obligations.TogglesKeepTheIntervalApart : Prop :=
  (∀ s t : State, step s = .next t → t.blinkOn = (if s.toggles = true then !s.blinkOn else s.blinkOn)) ∧
  (∀ s1 s2 s3 : State,
    s1.toggles = true → step s1 = .next s2 → ReachesUntoggled s2 s3 → s3.toggles = true →
    s3.blinkT = s1.now ∧ Config.blinkMs ≤ (elapsed s3.now s1.now).toNat) ∧
  ∀ (s1 s2 s3 : State) (T : Nat),
    s1.toggles = true → step s1 = .next s2 → Reaches s2 T s3 → s3.toggles = true →
    s1.timeSpent + T < 2 ^ 32 → Config.blinkMs ≤ (elapsed s3.now s1.now).toNat

/-- R139: a step that polls a held button at or after the window accepts a press: the button is Suppressed again from that
time and the digit changes. So from every state that is ready for it, under ideal timing in BLOCKING mode with the increment
line low and the decrement line high, an iteration accepts one press and takes 300 ms, and is ready for the next; and k
iterations, held throughout, accept k. -/
def Obligations.HeldButtonRepeats : Prop :=
  (∀ (s : State) (b : Button), s.polls b = true → s.line b = .low →
    Config.debounceMs ≤ (elapsed s.now (s.btn b).t).toNat →
    ∃ t, step s = .next t ∧ t.running ∧ t.btn b = ⟨.suppressed, s.now⟩ ∧ t.digit = pressDigit b s.digit) ∧
  (∀ s : State, s.HeldReady → s.stepsAhead 6 → s.drawsAhead 6 heldIncDraw →
    ∃ t, runSteps 6 s = .next t ∧ t.HeldReady ∧ t.pc = s.pc + 6 ∧ t.now = s.now + 300#32 ∧
      t.digit = incDigit s.digit ∧ t.btnInc = ⟨.suppressed, s.now⟩ ∧
      Config.debounceMs ≤ (elapsed t.now t.btnInc.t).toNat) ∧
  ∀ (k : Nat) (s : State), s.HeldReady → s.stepsAhead (6 * k) → s.drawsAhead (6 * k) heldIncDraw →
    ∃ t, runSteps (6 * k) s = .next t ∧ t.HeldReady ∧ t.pc = s.pc + 6 * k ∧
      t.now = s.now + BitVec.ofNat 32 (300 * k) ∧ t.digit.toNat = (s.digit.toNat + k) % 10

/-! ### The scheduler -/

/-- R163: one iteration, six STEPs from phase 0, takes IDLE_MS plus the stall of each press accepted in it (DEBOUNCE_MS each in
BLOCKING mode) plus the six draws δ. -/
def Obligations.IterationTimeIsIdlePlusStallsPlusDraws : Prop :=
  ∀ s : State, s.Inv → s.running → s.ph = .blink → s.stepsAhead 6 →
    ∃ s3 s4 t, runSteps 3 s = .next s3 ∧ step s3 = .next s4 ∧ runSteps 2 s4 = .next t ∧
      s3.ph = .pollInc ∧ s4.ph = .pollDec ∧ t.ph = .blink ∧ t.running ∧ t.pc = s.pc + 6 ∧
      t.now.toNat = (s.now.toNat + Config.idleMs
        + (if s.debounceMode = .blocking ∧ s3.acceptsPress .inc = true then Config.debounceMs else 0)
        + (if s.debounceMode = .blocking ∧ s4.acceptsPress .dec = true then Config.debounceMs else 0)
        + (s.drawAhead 0).delta + (s.drawAhead 1).delta + (s.drawAhead 2).delta
        + (s.drawAhead 3).delta + (s.drawAhead 4).delta + (s.drawAhead 5).delta) % 2 ^ 32

/-- R165: the frame of an iteration shows the digit at its start; a digit changed by its polls is in the FrameBuffer after phase
1 of the next iteration, and on the strip after phase 2 of it. -/
def Obligations.DigitChangeShowsInTheNextIteration : Prop :=
  ∀ s : State, s.Inv → s.running → s.ph = .blink → s.stepsAhead 9 →
    ∃ t u v, runSteps 6 s = .next t ∧ runSteps 2 t = .next u ∧ step u = .next v ∧
      t.trace = s.trace ++ [s.selectedFrame] ∧ t.fb = some s.selectedFrame ∧
      u.fb = some t.selectedFrame ∧ u.trace = t.trace ∧ v.trace = t.trace ++ [t.selectedFrame]

/-- R166: under ideal timing with no press, an iteration from every state that meets the invariant takes 100 ms, emits one
frame of the selected digit, and inverts the flag exactly when BLINK_MS have passed since the last toggle. So from the reset
registers, with STEP ahead, iteration k starts at 100 k ms, emits one frame of `Render(0, red)`, and leaves the blinker and the
status output at k mod 2. -/
def Obligations.IdealTimingTrace : Prop :=
  (∀ s : State, s.Inv → s.running → s.ph = .blink → s.stepsAhead 6 → s.drawsAhead 6 idealDraw →
    let due := Config.blinkMs ≤ (elapsed s.now s.blinkT).toNat
    ∃ t, runSteps 6 s = .next t ∧ t.Inv ∧ t.running ∧ t.ph = .blink ∧ t.pc = s.pc + 6 ∧
      t.now = s.now + 100#32 ∧ t.digit = s.digit ∧ t.trace = s.trace ++ [s.selectedFrame] ∧
      t.blinkOn = (if due then !s.blinkOn else s.blinkOn) ∧ t.blinkT = (if due then s.now else s.blinkT) ∧
      t.statusOut = t.blinkOn) ∧
  ∀ (k : Nat) (m : Stream) (ds : List EnvDraw) (n : Nat) (mode : DebounceMode),
    let s := State.fromReset m ds n mode
    s.stepsAhead (6 * (k + 1)) → s.drawsAhead (6 * (k + 1)) idealDraw →
    ∃ t u, runSteps (6 * k) s = .next t ∧ runSteps 6 t = .next u ∧
      t.ph = .blink ∧ t.now = BitVec.ofNat 32 (100 * k) ∧ t.trace = List.replicate k (render 0 0xFF0000#24) ∧
      u.trace = t.trace ++ [render 0 0xFF0000#24] ∧
      u.blinkOn = decide (k % 2 = 1) ∧ u.statusOut = decide (k % 2 = 1)

/-- R193 (its second sentence): from the reset registers with three STEPs ahead, nothing has been emitted after two steps, and
the third emits `Render(0, 0xFF0000)`, whatever the environment draws. -/
def Obligations.FirstFrameIsDigitZeroInRed : Prop :=
  ∀ (m : Stream) (ds : List EnvDraw) (n : Nat) (mode : DebounceMode),
    let s := State.fromReset m ds n mode
    s.stepsAhead 3 →
    ∃ t u, runSteps 2 s = .next t ∧ t.trace = [] ∧ step t = .next u ∧ u.trace = [render 0 0xFF0000#24]

/-- Normal operation never faults and never ends: from every state that meets the invariant, while the stream holds STEP, any
number of steps runs, the phases go round in order, and the invariant is kept. -/
def Obligations.NormalOperationNeverFaults : Prop :=
  ∀ (k : Nat) (s : State), s.Inv → s.running → s.stepsAhead k →
    ∃ t, runSteps k s = .next t ∧ t.running ∧ t.Inv ∧ t.pc = s.pc + k ∧
      t.ph.code.toNat = (s.ph.code.toNat + k) % 6

/-! ### The invariant, reset and the register view -/

/-- The invariant holds at reset. -/
def Obligations.ResetMeetsInvariant : Prop := State.reset.Inv

/-- Every step keeps the invariant: the digit's range, the fixed colour, the status output, the fault word, the written
FrameBuffer after a render, and the stream's canonical form. -/
def Obligations.StepKeepsInvariant : Prop :=
  ∀ s t : State, s.Inv → step s = .next t → t.Inv

/-- R190: what reset sets, and that power-on sets it from every state, the CORE's registers and the trace whole. -/
def Obligations.ResetValues : Prop :=
  (∀ s : State,
    let t := s.powerOn
    t.pc = 0 ∧ t.ph = .blink ∧ t.now = 0#32 ∧ t.digit = 0#4 ∧ t.color = 0xFF0000#24 ∧ t.fb = none ∧
    t.fbValid = false ∧ t.btn .inc = ⟨.idle, 0#32⟩ ∧ t.btn .dec = ⟨.idle, 0#32⟩ ∧
    t.btnWin .inc = 200#32 ∧ t.btnWin .dec = 200#32 ∧ t.blinkOn = false ∧ t.blinkT = 0#32 ∧ t.blinkWin = 100#32 ∧
    t.statusOut = false ∧ t.res = none ∧ t.resValid = false ∧ t.fault = .noFault ∧ t.faultWord = 0#32 ∧
    t.trace = []) ∧
  State.reset = State.reset.powerOn ∧ State.reset.debounceMode = .blocking

/-- R38: the register view, number by number; an unwritten register and a number not listed give no value. That a register
narrower than 32 bits is answered zero-extended to 32 is the model's choice, log entry 14: R38 gives its listed bits only. The
fault codes are those of R170: 0 NONE, 1 ILLEGAL_COMMAND, 2 RANGE_VIOLATION, 3 UNWRITTEN_READ. -/
def Obligations.RegisterViewNumbers : Prop :=
  ∀ s : State,
    s.view 0x00 = some (if s.ph = .blink then 0#32 else if s.ph = .render then 1#32 else if s.ph = .emit then 2#32
      else if s.ph = .pollInc then 3#32 else if s.ph = .pollDec then 4#32 else 5#32) ∧
    s.view 0x01 = some s.now ∧
    s.view 0x02 = some (s.digit.setWidth 32) ∧ s.view 0x03 = some (s.color.setWidth 32) ∧
    s.view 0x04 = some (if s.fb.isSome then 1#32 else 0#32) ∧
    s.view 0x05 = some (if s.btnInc.state = .suppressed then 1#32 else 0#32) ∧
    s.view 0x06 = some (if s.btnDec.state = .suppressed then 1#32 else 0#32) ∧
    s.view 0x07 = some s.btnInc.t ∧ s.view 0x08 = some s.btnDec.t ∧ s.view 0x09 = some 200#32 ∧
    s.view 0x0A = some (if s.blinkOn then 1#32 else 0#32) ∧ s.view 0x0B = some s.blinkT ∧
    s.view 0x0C = some 100#32 ∧ s.view 0x0D = some (if s.statusOut then 1#32 else 0#32) ∧
    s.view 0x0E = s.res.map (fun v => v.setWidth 32) ∧
    s.view 0x0F = some (if s.res.isSome then 1#32 else 0#32) ∧
    s.view 0x10 = some (if s.fault = .noFault then 0#32 else if s.fault = .illegalCommand then 1#32
      else if s.fault = .rangeViolation then 2#32 else 3#32) ∧
    s.view 0x11 = some s.faultWord ∧
    (∀ i : Fin 25, s.view (0x20 + i.val) = s.fb.map (fun f => f[i].setWidth 32)) ∧
    (∀ n : Nat, (0x11 < n ∧ n < 0x20) ∨ 0x38 < n → s.view n = none)
end

