-- ==== Sys2Proof/Laws/Decode.lean ====
section
/-! SUPPORT. The decoder's small lemmas: a bit range is below its bound, and the whole word is put together from its opcode
and the rest. -/

namespace Sys2Proof

theorem bits_lt (w : Word) (lo len : Nat) : bits w lo len < 2 ^ len := Nat.mod_lt _ (Nat.two_pow_pos len)

@[simp] theorem ifZero_zero (i : Instr) : ifZero 0 i = .ok i := rfl

theorem ifZero_of_ne {n : Nat} (h : n ≠ 0) (i : Instr) : ifZero n i = .error .reservedBits := if_neg h

theorem ifZero_eq_ok {n : Nat} {i j : Instr} : ifZero n i = .ok j ↔ n = 0 ∧ i = j := by
  by_cases h : n = 0
  · subst h; simp
  · simp [ifZero_of_ne h, h]

theorem ifZero_eq_error {n : Nat} {i : Instr} {e : DecodeReject} : ifZero n i = .error e ↔ n ≠ 0 ∧ e = .reservedBits := by
  by_cases h : n = 0
  · subst h; simp
  · simp [ifZero_of_ne h, h, eq_comm]

@[simp] theorem Button.ofNumber_number (b : Button) : Button.ofNumber b.number = b := by cases b <;> rfl

/-- A word is its opcode and its other bits. -/
theorem word_split (w : Word) : w.toNat = bits w 28 4 * 2 ^ 28 + bits w 0 28 := by
  have := w.isLt
  simp only [bits]
  omega

/-- The decoder, opcode by opcode. -/
theorem decode_of_opcode (w : Word) :
    (bits w 28 4 = 0x1 → decode w = ifZero (bits w 8 20) (.lookup (bits w 0 4) (bits w 4 4))) ∧
    (bits w 28 4 = 0x2 → decode w = .ok (.render (bits w 24 4) (colorField w))) ∧
    (bits w 28 4 = 0x3 → decode w = ifZero (bits w 0 28) .renders) ∧
    (bits w 28 4 = 0x4 → decode w = ifZero (bits w 5 23) (.fbread (bits w 0 5))) ∧
    (bits w 28 4 = 0x5 → decode w = ifZero (bits w 0 28) .emit) ∧
    (bits w 28 4 = 0x6 → decode w = ifZero (bits w 0 28) .blink) ∧
    (bits w 28 4 = 0x7 → decode w = ifZero (bits w 1 27) (.poll (Button.ofNumber (bits w 0 1)))) ∧
    (bits w 28 4 = 0x8 → decode w = ifZero (bits w 0 28) .selinc) ∧
    (bits w 28 4 = 0x9 → decode w = ifZero (bits w 0 28) .seldec) ∧
    (bits w 28 4 = 0xA → decode w = ifZero (bits w 16 12) (.wait (bits w 0 16))) ∧
    (bits w 28 4 = 0xB → decode w = ifZero (bits w 0 28) .step) ∧
    (bits w 28 4 = 0x0 ∨ 0xC ≤ bits w 28 4 → decode w = .error .reservedOpcode) := by
  refine ⟨?_, ?_, ?_, ?_, ?_, ?_, ?_, ?_, ?_, ?_, ?_, ?_⟩ <;> intro h
  on_goal 12 =>
    have := bits_lt w 28 4
    simp only [decode]
    split <;> simp_all
  all_goals simp only [decode, h]

/-- A mask that keeps the bits from `lo` on compares them alone. -/
theorem masked_eq_iff (w : Word) (lo : Nat) (hlo : lo ≤ 32) (v : Nat) (hv : v * 2 ^ lo < 2 ^ 32) :
    w &&& BitVec.ofNat 32 (2 ^ 32 - 2 ^ lo) = BitVec.ofNat 32 (v * 2 ^ lo) ↔ w.toNat / 2 ^ lo = v := by
  have hpos : 0 < 2 ^ lo := Nat.two_pow_pos lo
  have hle : 2 ^ lo ≤ 2 ^ 32 := Nat.pow_le_pow_right (by decide) hlo
  have hmask : w &&& BitVec.ofNat 32 (2 ^ 32 - 2 ^ lo) = BitVec.ofNat 32 (w.toNat / 2 ^ lo * 2 ^ lo) := by
    apply BitVec.eq_of_getLsbD_eq
    intro i hi
    have h1 : (2 ^ 32 - 2 ^ lo).testBit i = (decide (lo ≤ i) && decide (i < 32)) := by
      have : 2 ^ 32 - 2 ^ lo = (2 ^ (32 - lo) - 1) * 2 ^ lo := by
        rw [Nat.sub_mul, ← Nat.pow_add, Nat.sub_add_cancel hlo, Nat.one_mul]
      rw [this, Nat.testBit_mul_two_pow, Nat.testBit_two_pow_sub_one]
      by_cases h : lo ≤ i <;> simp [h] <;> omega
    have h2 : (w.toNat / 2 ^ lo * 2 ^ lo).testBit i = (decide (lo ≤ i) && w.getLsbD i) := by
      rw [Nat.testBit_mul_two_pow, Nat.testBit_div_two_pow]
      by_cases h : lo ≤ i <;> simp [h, BitVec.getLsbD]
    simp only [BitVec.getLsbD_and, BitVec.getLsbD_ofNat, h1, h2, hi, decide_true, Bool.true_and, Bool.and_true]
    rw [Bool.and_comm]
  rw [hmask]
  constructor
  · intro h
    have h' := congrArg BitVec.toNat h
    have hw := w.isLt
    have hq : w.toNat / 2 ^ lo * 2 ^ lo < 2 ^ 32 := Nat.lt_of_le_of_lt (Nat.div_mul_le_self _ _) hw
    rw [BitVec.toNat_ofNat, BitVec.toNat_ofNat, Nat.mod_eq_of_lt hq, Nat.mod_eq_of_lt hv] at h'
    exact Nat.eq_of_mul_eq_mul_right hpos h'
  · intro h
    rw [h]

end Sys2Proof
end

