-- ==== Sys2Proof/Laws/State.lean ====
section
/-! SUPPORT. The record updates of the state: one lemma per field per update. -/

namespace Sys2Proof.Machine

variable (s : State)

/-! ### writeFb -/

@[simp] theorem State.writeFb_pc (f : Frame) : (s.writeFb f).pc = s.pc := rfl
@[simp] theorem State.writeFb_ph (f : Frame) : (s.writeFb f).ph = s.ph := rfl
@[simp] theorem State.writeFb_now (f : Frame) : (s.writeFb f).now = s.now := rfl
@[simp] theorem State.writeFb_digit (f : Frame) : (s.writeFb f).digit = s.digit := rfl
@[simp] theorem State.writeFb_color (f : Frame) : (s.writeFb f).color = s.color := rfl
@[simp] theorem State.writeFb_fb (f : Frame) : (s.writeFb f).fb = some f := rfl
@[simp] theorem State.writeFb_btnInc (f : Frame) : (s.writeFb f).btnInc = s.btnInc := rfl
@[simp] theorem State.writeFb_btnDec (f : Frame) : (s.writeFb f).btnDec = s.btnDec := rfl
@[simp] theorem State.writeFb_blinkOn (f : Frame) : (s.writeFb f).blinkOn = s.blinkOn := rfl
@[simp] theorem State.writeFb_blinkT (f : Frame) : (s.writeFb f).blinkT = s.blinkT := rfl
@[simp] theorem State.writeFb_statusOut (f : Frame) : (s.writeFb f).statusOut = s.statusOut := rfl
@[simp] theorem State.writeFb_res (f : Frame) : (s.writeFb f).res = s.res := rfl
@[simp] theorem State.writeFb_fault (f : Frame) : (s.writeFb f).fault = s.fault := rfl
@[simp] theorem State.writeFb_faultWord (f : Frame) : (s.writeFb f).faultWord = s.faultWord := rfl
@[simp] theorem State.writeFb_trace (f : Frame) : (s.writeFb f).trace = s.trace := rfl
@[simp] theorem State.writeFb_stream (f : Frame) : (s.writeFb f).stream = s.stream := rfl
@[simp] theorem State.writeFb_script (f : Frame) : (s.writeFb f).script = s.script := rfl
@[simp] theorem State.writeFb_drawIx (f : Frame) : (s.writeFb f).drawIx = s.drawIx := rfl
@[simp] theorem State.writeFb_debounceMode (f : Frame) : (s.writeFb f).debounceMode = s.debounceMode := rfl

/-! ### writeRes -/

@[simp] theorem State.writeRes_pc (v : BitVec 24) : (s.writeRes v).pc = s.pc := rfl
@[simp] theorem State.writeRes_ph (v : BitVec 24) : (s.writeRes v).ph = s.ph := rfl
@[simp] theorem State.writeRes_now (v : BitVec 24) : (s.writeRes v).now = s.now := rfl
@[simp] theorem State.writeRes_digit (v : BitVec 24) : (s.writeRes v).digit = s.digit := rfl
@[simp] theorem State.writeRes_color (v : BitVec 24) : (s.writeRes v).color = s.color := rfl
@[simp] theorem State.writeRes_fb (v : BitVec 24) : (s.writeRes v).fb = s.fb := rfl
@[simp] theorem State.writeRes_btnInc (v : BitVec 24) : (s.writeRes v).btnInc = s.btnInc := rfl
@[simp] theorem State.writeRes_btnDec (v : BitVec 24) : (s.writeRes v).btnDec = s.btnDec := rfl
@[simp] theorem State.writeRes_blinkOn (v : BitVec 24) : (s.writeRes v).blinkOn = s.blinkOn := rfl
@[simp] theorem State.writeRes_blinkT (v : BitVec 24) : (s.writeRes v).blinkT = s.blinkT := rfl
@[simp] theorem State.writeRes_statusOut (v : BitVec 24) : (s.writeRes v).statusOut = s.statusOut := rfl
@[simp] theorem State.writeRes_res (v : BitVec 24) : (s.writeRes v).res = some v := rfl
@[simp] theorem State.writeRes_fault (v : BitVec 24) : (s.writeRes v).fault = s.fault := rfl
@[simp] theorem State.writeRes_faultWord (v : BitVec 24) : (s.writeRes v).faultWord = s.faultWord := rfl
@[simp] theorem State.writeRes_trace (v : BitVec 24) : (s.writeRes v).trace = s.trace := rfl
@[simp] theorem State.writeRes_stream (v : BitVec 24) : (s.writeRes v).stream = s.stream := rfl
@[simp] theorem State.writeRes_script (v : BitVec 24) : (s.writeRes v).script = s.script := rfl
@[simp] theorem State.writeRes_drawIx (v : BitVec 24) : (s.writeRes v).drawIx = s.drawIx := rfl
@[simp] theorem State.writeRes_debounceMode (v : BitVec 24) : (s.writeRes v).debounceMode = s.debounceMode := rfl

/-! ### emitFrame -/

@[simp] theorem State.emitFrame_pc (f : Frame) : (s.emitFrame f).pc = s.pc := rfl
@[simp] theorem State.emitFrame_ph (f : Frame) : (s.emitFrame f).ph = s.ph := rfl
@[simp] theorem State.emitFrame_now (f : Frame) : (s.emitFrame f).now = s.now := rfl
@[simp] theorem State.emitFrame_digit (f : Frame) : (s.emitFrame f).digit = s.digit := rfl
@[simp] theorem State.emitFrame_color (f : Frame) : (s.emitFrame f).color = s.color := rfl
@[simp] theorem State.emitFrame_fb (f : Frame) : (s.emitFrame f).fb = s.fb := rfl
@[simp] theorem State.emitFrame_btnInc (f : Frame) : (s.emitFrame f).btnInc = s.btnInc := rfl
@[simp] theorem State.emitFrame_btnDec (f : Frame) : (s.emitFrame f).btnDec = s.btnDec := rfl
@[simp] theorem State.emitFrame_blinkOn (f : Frame) : (s.emitFrame f).blinkOn = s.blinkOn := rfl
@[simp] theorem State.emitFrame_blinkT (f : Frame) : (s.emitFrame f).blinkT = s.blinkT := rfl
@[simp] theorem State.emitFrame_statusOut (f : Frame) : (s.emitFrame f).statusOut = s.statusOut := rfl
@[simp] theorem State.emitFrame_res (f : Frame) : (s.emitFrame f).res = s.res := rfl
@[simp] theorem State.emitFrame_fault (f : Frame) : (s.emitFrame f).fault = s.fault := rfl
@[simp] theorem State.emitFrame_faultWord (f : Frame) : (s.emitFrame f).faultWord = s.faultWord := rfl
@[simp] theorem State.emitFrame_trace (f : Frame) : (s.emitFrame f).trace = s.trace ++ [f] := rfl
@[simp] theorem State.emitFrame_stream (f : Frame) : (s.emitFrame f).stream = s.stream := rfl
@[simp] theorem State.emitFrame_script (f : Frame) : (s.emitFrame f).script = s.script := rfl
@[simp] theorem State.emitFrame_drawIx (f : Frame) : (s.emitFrame f).drawIx = s.drawIx := rfl
@[simp] theorem State.emitFrame_debounceMode (f : Frame) : (s.emitFrame f).debounceMode = s.debounceMode := rfl

/-! ### writeDigit -/

@[simp] theorem State.writeDigit_pc (d : BitVec 4) : (s.writeDigit d).pc = s.pc := rfl
@[simp] theorem State.writeDigit_ph (d : BitVec 4) : (s.writeDigit d).ph = s.ph := rfl
@[simp] theorem State.writeDigit_now (d : BitVec 4) : (s.writeDigit d).now = s.now := rfl
@[simp] theorem State.writeDigit_digit (d : BitVec 4) : (s.writeDigit d).digit = d := rfl
@[simp] theorem State.writeDigit_color (d : BitVec 4) : (s.writeDigit d).color = s.color := rfl
@[simp] theorem State.writeDigit_fb (d : BitVec 4) : (s.writeDigit d).fb = s.fb := rfl
@[simp] theorem State.writeDigit_btnInc (d : BitVec 4) : (s.writeDigit d).btnInc = s.btnInc := rfl
@[simp] theorem State.writeDigit_btnDec (d : BitVec 4) : (s.writeDigit d).btnDec = s.btnDec := rfl
@[simp] theorem State.writeDigit_blinkOn (d : BitVec 4) : (s.writeDigit d).blinkOn = s.blinkOn := rfl
@[simp] theorem State.writeDigit_blinkT (d : BitVec 4) : (s.writeDigit d).blinkT = s.blinkT := rfl
@[simp] theorem State.writeDigit_statusOut (d : BitVec 4) : (s.writeDigit d).statusOut = s.statusOut := rfl
@[simp] theorem State.writeDigit_res (d : BitVec 4) : (s.writeDigit d).res = s.res := rfl
@[simp] theorem State.writeDigit_fault (d : BitVec 4) : (s.writeDigit d).fault = s.fault := rfl
@[simp] theorem State.writeDigit_faultWord (d : BitVec 4) : (s.writeDigit d).faultWord = s.faultWord := rfl
@[simp] theorem State.writeDigit_trace (d : BitVec 4) : (s.writeDigit d).trace = s.trace := rfl
@[simp] theorem State.writeDigit_stream (d : BitVec 4) : (s.writeDigit d).stream = s.stream := rfl
@[simp] theorem State.writeDigit_script (d : BitVec 4) : (s.writeDigit d).script = s.script := rfl
@[simp] theorem State.writeDigit_drawIx (d : BitVec 4) : (s.writeDigit d).drawIx = s.drawIx := rfl
@[simp] theorem State.writeDigit_debounceMode (d : BitVec 4) : (s.writeDigit d).debounceMode = s.debounceMode := rfl

/-! ### recordToggle -/

@[simp] theorem State.recordToggle_pc (on : Bool) (u : Time) : (s.recordToggle on u).pc = s.pc := rfl
@[simp] theorem State.recordToggle_ph (on : Bool) (u : Time) : (s.recordToggle on u).ph = s.ph := rfl
@[simp] theorem State.recordToggle_now (on : Bool) (u : Time) : (s.recordToggle on u).now = s.now := rfl
@[simp] theorem State.recordToggle_digit (on : Bool) (u : Time) : (s.recordToggle on u).digit = s.digit := rfl
@[simp] theorem State.recordToggle_color (on : Bool) (u : Time) : (s.recordToggle on u).color = s.color := rfl
@[simp] theorem State.recordToggle_fb (on : Bool) (u : Time) : (s.recordToggle on u).fb = s.fb := rfl
@[simp] theorem State.recordToggle_btnInc (on : Bool) (u : Time) : (s.recordToggle on u).btnInc = s.btnInc := rfl
@[simp] theorem State.recordToggle_btnDec (on : Bool) (u : Time) : (s.recordToggle on u).btnDec = s.btnDec := rfl
@[simp] theorem State.recordToggle_blinkOn (on : Bool) (u : Time) : (s.recordToggle on u).blinkOn = on := rfl
@[simp] theorem State.recordToggle_blinkT (on : Bool) (u : Time) : (s.recordToggle on u).blinkT = u := rfl
@[simp] theorem State.recordToggle_statusOut (on : Bool) (u : Time) : (s.recordToggle on u).statusOut = s.statusOut := rfl
@[simp] theorem State.recordToggle_res (on : Bool) (u : Time) : (s.recordToggle on u).res = s.res := rfl
@[simp] theorem State.recordToggle_fault (on : Bool) (u : Time) : (s.recordToggle on u).fault = s.fault := rfl
@[simp] theorem State.recordToggle_faultWord (on : Bool) (u : Time) : (s.recordToggle on u).faultWord = s.faultWord := rfl
@[simp] theorem State.recordToggle_trace (on : Bool) (u : Time) : (s.recordToggle on u).trace = s.trace := rfl
@[simp] theorem State.recordToggle_stream (on : Bool) (u : Time) : (s.recordToggle on u).stream = s.stream := rfl
@[simp] theorem State.recordToggle_script (on : Bool) (u : Time) : (s.recordToggle on u).script = s.script := rfl
@[simp] theorem State.recordToggle_drawIx (on : Bool) (u : Time) : (s.recordToggle on u).drawIx = s.drawIx := rfl
@[simp] theorem State.recordToggle_debounceMode (on : Bool) (u : Time) : (s.recordToggle on u).debounceMode = s.debounceMode := rfl

/-! ### driveStatus -/

@[simp] theorem State.driveStatus_pc : (s.driveStatus).pc = s.pc := rfl
@[simp] theorem State.driveStatus_ph : (s.driveStatus).ph = s.ph := rfl
@[simp] theorem State.driveStatus_now : (s.driveStatus).now = s.now := rfl
@[simp] theorem State.driveStatus_digit : (s.driveStatus).digit = s.digit := rfl
@[simp] theorem State.driveStatus_color : (s.driveStatus).color = s.color := rfl
@[simp] theorem State.driveStatus_fb : (s.driveStatus).fb = s.fb := rfl
@[simp] theorem State.driveStatus_btnInc : (s.driveStatus).btnInc = s.btnInc := rfl
@[simp] theorem State.driveStatus_btnDec : (s.driveStatus).btnDec = s.btnDec := rfl
@[simp] theorem State.driveStatus_blinkOn : (s.driveStatus).blinkOn = s.blinkOn := rfl
@[simp] theorem State.driveStatus_blinkT : (s.driveStatus).blinkT = s.blinkT := rfl
@[simp] theorem State.driveStatus_statusOut : (s.driveStatus).statusOut = s.blinkOn := rfl
@[simp] theorem State.driveStatus_res : (s.driveStatus).res = s.res := rfl
@[simp] theorem State.driveStatus_fault : (s.driveStatus).fault = s.fault := rfl
@[simp] theorem State.driveStatus_faultWord : (s.driveStatus).faultWord = s.faultWord := rfl
@[simp] theorem State.driveStatus_trace : (s.driveStatus).trace = s.trace := rfl
@[simp] theorem State.driveStatus_stream : (s.driveStatus).stream = s.stream := rfl
@[simp] theorem State.driveStatus_script : (s.driveStatus).script = s.script := rfl
@[simp] theorem State.driveStatus_drawIx : (s.driveStatus).drawIx = s.drawIx := rfl
@[simp] theorem State.driveStatus_debounceMode : (s.driveStatus).debounceMode = s.debounceMode := rfl

/-! ### nextPhase -/

@[simp] theorem State.nextPhase_pc : (s.nextPhase).pc = s.pc := rfl
@[simp] theorem State.nextPhase_ph : (s.nextPhase).ph = s.ph.next := rfl
@[simp] theorem State.nextPhase_now : (s.nextPhase).now = s.now := rfl
@[simp] theorem State.nextPhase_digit : (s.nextPhase).digit = s.digit := rfl
@[simp] theorem State.nextPhase_color : (s.nextPhase).color = s.color := rfl
@[simp] theorem State.nextPhase_fb : (s.nextPhase).fb = s.fb := rfl
@[simp] theorem State.nextPhase_btnInc : (s.nextPhase).btnInc = s.btnInc := rfl
@[simp] theorem State.nextPhase_btnDec : (s.nextPhase).btnDec = s.btnDec := rfl
@[simp] theorem State.nextPhase_blinkOn : (s.nextPhase).blinkOn = s.blinkOn := rfl
@[simp] theorem State.nextPhase_blinkT : (s.nextPhase).blinkT = s.blinkT := rfl
@[simp] theorem State.nextPhase_statusOut : (s.nextPhase).statusOut = s.statusOut := rfl
@[simp] theorem State.nextPhase_res : (s.nextPhase).res = s.res := rfl
@[simp] theorem State.nextPhase_fault : (s.nextPhase).fault = s.fault := rfl
@[simp] theorem State.nextPhase_faultWord : (s.nextPhase).faultWord = s.faultWord := rfl
@[simp] theorem State.nextPhase_trace : (s.nextPhase).trace = s.trace := rfl
@[simp] theorem State.nextPhase_stream : (s.nextPhase).stream = s.stream := rfl
@[simp] theorem State.nextPhase_script : (s.nextPhase).script = s.script := rfl
@[simp] theorem State.nextPhase_drawIx : (s.nextPhase).drawIx = s.drawIx := rfl
@[simp] theorem State.nextPhase_debounceMode : (s.nextPhase).debounceMode = s.debounceMode := rfl

/-! ### complete -/

@[simp] theorem State.complete_pc (cost : Nat) : (s.complete cost).pc = s.pc + 1 := rfl
@[simp] theorem State.complete_ph (cost : Nat) : (s.complete cost).ph = s.ph := rfl
@[simp] theorem State.complete_now (cost : Nat) : (s.complete cost).now = advance s.now (cost + s.delta) := rfl
@[simp] theorem State.complete_digit (cost : Nat) : (s.complete cost).digit = s.digit := rfl
@[simp] theorem State.complete_color (cost : Nat) : (s.complete cost).color = s.color := rfl
@[simp] theorem State.complete_fb (cost : Nat) : (s.complete cost).fb = s.fb := rfl
@[simp] theorem State.complete_btnInc (cost : Nat) : (s.complete cost).btnInc = s.btnInc := rfl
@[simp] theorem State.complete_btnDec (cost : Nat) : (s.complete cost).btnDec = s.btnDec := rfl
@[simp] theorem State.complete_blinkOn (cost : Nat) : (s.complete cost).blinkOn = s.blinkOn := rfl
@[simp] theorem State.complete_blinkT (cost : Nat) : (s.complete cost).blinkT = s.blinkT := rfl
@[simp] theorem State.complete_statusOut (cost : Nat) : (s.complete cost).statusOut = s.statusOut := rfl
@[simp] theorem State.complete_res (cost : Nat) : (s.complete cost).res = s.res := rfl
@[simp] theorem State.complete_fault (cost : Nat) : (s.complete cost).fault = s.fault := rfl
@[simp] theorem State.complete_faultWord (cost : Nat) : (s.complete cost).faultWord = s.faultWord := rfl
@[simp] theorem State.complete_trace (cost : Nat) : (s.complete cost).trace = s.trace := rfl
@[simp] theorem State.complete_stream (cost : Nat) : (s.complete cost).stream = s.stream := rfl
@[simp] theorem State.complete_script (cost : Nat) : (s.complete cost).script = s.script.tail := rfl
@[simp] theorem State.complete_drawIx (cost : Nat) : (s.complete cost).drawIx = s.drawIx + 1 := rfl
@[simp] theorem State.complete_debounceMode (cost : Nat) : (s.complete cost).debounceMode = s.debounceMode := rfl

/-! ### raise -/

@[simp] theorem State.raise_pc (c : FaultKind) (w : Word) : (s.raise c w).pc = s.pc := rfl
@[simp] theorem State.raise_ph (c : FaultKind) (w : Word) : (s.raise c w).ph = s.ph := rfl
@[simp] theorem State.raise_now (c : FaultKind) (w : Word) : (s.raise c w).now = s.now := rfl
@[simp] theorem State.raise_digit (c : FaultKind) (w : Word) : (s.raise c w).digit = s.digit := rfl
@[simp] theorem State.raise_color (c : FaultKind) (w : Word) : (s.raise c w).color = s.color := rfl
@[simp] theorem State.raise_fb (c : FaultKind) (w : Word) : (s.raise c w).fb = s.fb := rfl
@[simp] theorem State.raise_btnInc (c : FaultKind) (w : Word) : (s.raise c w).btnInc = s.btnInc := rfl
@[simp] theorem State.raise_btnDec (c : FaultKind) (w : Word) : (s.raise c w).btnDec = s.btnDec := rfl
@[simp] theorem State.raise_blinkOn (c : FaultKind) (w : Word) : (s.raise c w).blinkOn = s.blinkOn := rfl
@[simp] theorem State.raise_blinkT (c : FaultKind) (w : Word) : (s.raise c w).blinkT = s.blinkT := rfl
@[simp] theorem State.raise_statusOut (c : FaultKind) (w : Word) : (s.raise c w).statusOut = s.statusOut := rfl
@[simp] theorem State.raise_res (c : FaultKind) (w : Word) : (s.raise c w).res = s.res := rfl
@[simp] theorem State.raise_fault (c : FaultKind) (w : Word) : (s.raise c w).fault = c.register := rfl
@[simp] theorem State.raise_faultWord (c : FaultKind) (w : Word) : (s.raise c w).faultWord = w := rfl
@[simp] theorem State.raise_trace (c : FaultKind) (w : Word) : (s.raise c w).trace = s.trace := rfl
@[simp] theorem State.raise_stream (c : FaultKind) (w : Word) : (s.raise c w).stream = s.stream := rfl
@[simp] theorem State.raise_script (c : FaultKind) (w : Word) : (s.raise c w).script = s.script := rfl
@[simp] theorem State.raise_drawIx (c : FaultKind) (w : Word) : (s.raise c w).drawIx = s.drawIx := rfl
@[simp] theorem State.raise_debounceMode (c : FaultKind) (w : Word) : (s.raise c w).debounceMode = s.debounceMode := rfl

/-! ### placeCommand -/

@[simp] theorem State.placeCommand_pc (a : Nat) (w : Word) : (s.placeCommand a w).pc = s.pc := rfl
@[simp] theorem State.placeCommand_ph (a : Nat) (w : Word) : (s.placeCommand a w).ph = s.ph := rfl
@[simp] theorem State.placeCommand_now (a : Nat) (w : Word) : (s.placeCommand a w).now = s.now := rfl
@[simp] theorem State.placeCommand_digit (a : Nat) (w : Word) : (s.placeCommand a w).digit = s.digit := rfl
@[simp] theorem State.placeCommand_color (a : Nat) (w : Word) : (s.placeCommand a w).color = s.color := rfl
@[simp] theorem State.placeCommand_fb (a : Nat) (w : Word) : (s.placeCommand a w).fb = s.fb := rfl
@[simp] theorem State.placeCommand_btnInc (a : Nat) (w : Word) : (s.placeCommand a w).btnInc = s.btnInc := rfl
@[simp] theorem State.placeCommand_btnDec (a : Nat) (w : Word) : (s.placeCommand a w).btnDec = s.btnDec := rfl
@[simp] theorem State.placeCommand_blinkOn (a : Nat) (w : Word) : (s.placeCommand a w).blinkOn = s.blinkOn := rfl
@[simp] theorem State.placeCommand_blinkT (a : Nat) (w : Word) : (s.placeCommand a w).blinkT = s.blinkT := rfl
@[simp] theorem State.placeCommand_statusOut (a : Nat) (w : Word) : (s.placeCommand a w).statusOut = s.statusOut := rfl
@[simp] theorem State.placeCommand_res (a : Nat) (w : Word) : (s.placeCommand a w).res = s.res := rfl
@[simp] theorem State.placeCommand_fault (a : Nat) (w : Word) : (s.placeCommand a w).fault = s.fault := rfl
@[simp] theorem State.placeCommand_faultWord (a : Nat) (w : Word) : (s.placeCommand a w).faultWord = s.faultWord := rfl
@[simp] theorem State.placeCommand_trace (a : Nat) (w : Word) : (s.placeCommand a w).trace = s.trace := rfl
@[simp] theorem State.placeCommand_stream (a : Nat) (w : Word) : (s.placeCommand a w).stream = Stream.place s.stream a w := rfl
@[simp] theorem State.placeCommand_script (a : Nat) (w : Word) : (s.placeCommand a w).script = s.script := rfl
@[simp] theorem State.placeCommand_drawIx (a : Nat) (w : Word) : (s.placeCommand a w).drawIx = s.drawIx := rfl
@[simp] theorem State.placeCommand_debounceMode (a : Nat) (w : Word) : (s.placeCommand a w).debounceMode = s.debounceMode := rfl

/-! ### scriptDraws -/

@[simp] theorem State.scriptDraws_pc (ds : List EnvDraw) : (s.scriptDraws ds).pc = s.pc := rfl
@[simp] theorem State.scriptDraws_ph (ds : List EnvDraw) : (s.scriptDraws ds).ph = s.ph := rfl
@[simp] theorem State.scriptDraws_now (ds : List EnvDraw) : (s.scriptDraws ds).now = s.now := rfl
@[simp] theorem State.scriptDraws_digit (ds : List EnvDraw) : (s.scriptDraws ds).digit = s.digit := rfl
@[simp] theorem State.scriptDraws_color (ds : List EnvDraw) : (s.scriptDraws ds).color = s.color := rfl
@[simp] theorem State.scriptDraws_fb (ds : List EnvDraw) : (s.scriptDraws ds).fb = s.fb := rfl
@[simp] theorem State.scriptDraws_btnInc (ds : List EnvDraw) : (s.scriptDraws ds).btnInc = s.btnInc := rfl
@[simp] theorem State.scriptDraws_btnDec (ds : List EnvDraw) : (s.scriptDraws ds).btnDec = s.btnDec := rfl
@[simp] theorem State.scriptDraws_blinkOn (ds : List EnvDraw) : (s.scriptDraws ds).blinkOn = s.blinkOn := rfl
@[simp] theorem State.scriptDraws_blinkT (ds : List EnvDraw) : (s.scriptDraws ds).blinkT = s.blinkT := rfl
@[simp] theorem State.scriptDraws_statusOut (ds : List EnvDraw) : (s.scriptDraws ds).statusOut = s.statusOut := rfl
@[simp] theorem State.scriptDraws_res (ds : List EnvDraw) : (s.scriptDraws ds).res = s.res := rfl
@[simp] theorem State.scriptDraws_fault (ds : List EnvDraw) : (s.scriptDraws ds).fault = s.fault := rfl
@[simp] theorem State.scriptDraws_faultWord (ds : List EnvDraw) : (s.scriptDraws ds).faultWord = s.faultWord := rfl
@[simp] theorem State.scriptDraws_trace (ds : List EnvDraw) : (s.scriptDraws ds).trace = s.trace := rfl
@[simp] theorem State.scriptDraws_stream (ds : List EnvDraw) : (s.scriptDraws ds).stream = s.stream := rfl
@[simp] theorem State.scriptDraws_script (ds : List EnvDraw) : (s.scriptDraws ds).script = ds := rfl
@[simp] theorem State.scriptDraws_drawIx (ds : List EnvDraw) : (s.scriptDraws ds).drawIx = s.drawIx := rfl
@[simp] theorem State.scriptDraws_debounceMode (ds : List EnvDraw) : (s.scriptDraws ds).debounceMode = s.debounceMode := rfl

/-! ### setBtn -/

@[simp] theorem State.setBtn_pc (b : Button) (r : ButtonRegs) : (s.setBtn b r).pc = s.pc := by cases b <;> rfl
@[simp] theorem State.setBtn_ph (b : Button) (r : ButtonRegs) : (s.setBtn b r).ph = s.ph := by cases b <;> rfl
@[simp] theorem State.setBtn_now (b : Button) (r : ButtonRegs) : (s.setBtn b r).now = s.now := by cases b <;> rfl
@[simp] theorem State.setBtn_digit (b : Button) (r : ButtonRegs) : (s.setBtn b r).digit = s.digit := by cases b <;> rfl
@[simp] theorem State.setBtn_color (b : Button) (r : ButtonRegs) : (s.setBtn b r).color = s.color := by cases b <;> rfl
@[simp] theorem State.setBtn_fb (b : Button) (r : ButtonRegs) : (s.setBtn b r).fb = s.fb := by cases b <;> rfl
@[simp] theorem State.setBtn_blinkOn (b : Button) (r : ButtonRegs) : (s.setBtn b r).blinkOn = s.blinkOn := by cases b <;> rfl
@[simp] theorem State.setBtn_blinkT (b : Button) (r : ButtonRegs) : (s.setBtn b r).blinkT = s.blinkT := by cases b <;> rfl
@[simp] theorem State.setBtn_statusOut (b : Button) (r : ButtonRegs) : (s.setBtn b r).statusOut = s.statusOut := by cases b <;> rfl
@[simp] theorem State.setBtn_res (b : Button) (r : ButtonRegs) : (s.setBtn b r).res = s.res := by cases b <;> rfl
@[simp] theorem State.setBtn_fault (b : Button) (r : ButtonRegs) : (s.setBtn b r).fault = s.fault := by cases b <;> rfl
@[simp] theorem State.setBtn_faultWord (b : Button) (r : ButtonRegs) : (s.setBtn b r).faultWord = s.faultWord := by cases b <;> rfl
@[simp] theorem State.setBtn_trace (b : Button) (r : ButtonRegs) : (s.setBtn b r).trace = s.trace := by cases b <;> rfl
@[simp] theorem State.setBtn_stream (b : Button) (r : ButtonRegs) : (s.setBtn b r).stream = s.stream := by cases b <;> rfl
@[simp] theorem State.setBtn_script (b : Button) (r : ButtonRegs) : (s.setBtn b r).script = s.script := by cases b <;> rfl
@[simp] theorem State.setBtn_drawIx (b : Button) (r : ButtonRegs) : (s.setBtn b r).drawIx = s.drawIx := by cases b <;> rfl
@[simp] theorem State.setBtn_debounceMode (b : Button) (r : ButtonRegs) : (s.setBtn b r).debounceMode = s.debounceMode := by cases b <;> rfl
@[simp] theorem State.setBtn_inc_btnInc (r : ButtonRegs) : (s.setBtn .inc r).btnInc = r := rfl
@[simp] theorem State.setBtn_inc_btnDec (r : ButtonRegs) : (s.setBtn .inc r).btnDec = s.btnDec := rfl
@[simp] theorem State.setBtn_dec_btnDec (r : ButtonRegs) : (s.setBtn .dec r).btnDec = r := rfl
@[simp] theorem State.setBtn_dec_btnInc (r : ButtonRegs) : (s.setBtn .dec r).btnInc = s.btnInc := rfl

/-! ### The views of the state: buttons, draws, status bits -/

@[simp] theorem State.btn_inc : s.btn .inc = s.btnInc := rfl
@[simp] theorem State.btn_dec : s.btn .dec = s.btnDec := rfl
@[simp] theorem State.line_inc : s.line .inc = s.draw.btnIncN := rfl
@[simp] theorem State.line_dec : s.line .dec = s.draw.btnDecN := rfl

/-- A button reads back what was written to it. -/
@[simp] theorem State.btn_setBtn_same (b : Button) (r : ButtonRegs) : (s.setBtn b r).btn b = r := by cases b <;> rfl

/-- Writing one button leaves the other. -/
theorem State.btn_setBtn_other {b b' : Button} (h : b' ≠ b) (r : ButtonRegs) : (s.setBtn b r).btn b' = s.btn b' := by
  cases b <;> cases b' <;> first | rfl | exact absurd rfl h

/-- A button's registers do not depend on the digit. -/
@[simp] theorem State.btn_writeDigit (b : Button) (d : BitVec 4) : (s.writeDigit d).btn b = s.btn b := by cases b <;> rfl

/-- A scripted draw is the next one. -/
theorem State.draw_cons {d : EnvDraw} {ds : List EnvDraw} (h : s.script = d :: ds) : s.draw = d := by
  simp [State.draw, h]

/-- With nothing scripted the draw is free. -/
theorem State.draw_nil (h : s.script = []) : s.draw = Config.freeDraw s.drawIx := by simp [State.draw, h]

/-- The draw depends only on the script and the draw counter. -/
theorem State.draw_congr {t : State} (h : t.script = s.script) (h' : t.drawIx = s.drawIx) : t.draw = s.draw := by
  simp [State.draw, h, h']

/-! ### The draws survive every register write -/

@[simp] theorem State.writeFb_draw (f : Frame) : (s.writeFb f).draw = s.draw := rfl
@[simp] theorem State.writeFb_delta (f : Frame) : (s.writeFb f).delta = s.delta := rfl
@[simp] theorem State.writeRes_draw (v : BitVec 24) : (s.writeRes v).draw = s.draw := rfl
@[simp] theorem State.writeRes_delta (v : BitVec 24) : (s.writeRes v).delta = s.delta := rfl
@[simp] theorem State.emitFrame_draw (f : Frame) : (s.emitFrame f).draw = s.draw := rfl
@[simp] theorem State.emitFrame_delta (f : Frame) : (s.emitFrame f).delta = s.delta := rfl
@[simp] theorem State.writeDigit_draw (d : BitVec 4) : (s.writeDigit d).draw = s.draw := rfl
@[simp] theorem State.writeDigit_delta (d : BitVec 4) : (s.writeDigit d).delta = s.delta := rfl
@[simp] theorem State.recordToggle_draw (on : Bool) (u : Time) : (s.recordToggle on u).draw = s.draw := rfl
@[simp] theorem State.recordToggle_delta (on : Bool) (u : Time) : (s.recordToggle on u).delta = s.delta := rfl
@[simp] theorem State.driveStatus_draw : (s.driveStatus).draw = s.draw := rfl
@[simp] theorem State.driveStatus_delta : (s.driveStatus).delta = s.delta := rfl
@[simp] theorem State.nextPhase_draw : (s.nextPhase).draw = s.draw := rfl
@[simp] theorem State.nextPhase_delta : (s.nextPhase).delta = s.delta := rfl
@[simp] theorem State.raise_draw (c : FaultKind) (w : Word) : (s.raise c w).draw = s.draw := rfl
@[simp] theorem State.raise_delta (c : FaultKind) (w : Word) : (s.raise c w).delta = s.delta := rfl
@[simp] theorem State.placeCommand_draw (a : Nat) (w : Word) : (s.placeCommand a w).draw = s.draw := rfl
@[simp] theorem State.placeCommand_delta (a : Nat) (w : Word) : (s.placeCommand a w).delta = s.delta := rfl
@[simp] theorem State.setBtn_draw (b : Button) (r : ButtonRegs) : (s.setBtn b r).draw = s.draw := by cases b <;> rfl
@[simp] theorem State.setBtn_delta (b : Button) (r : ButtonRegs) : (s.setBtn b r).delta = s.delta := by cases b <;> rfl

@[simp] theorem State.fbValid_writeFb (f : Frame) : (s.writeFb f).fbValid = true := rfl
@[simp] theorem State.resValid_writeRes (v : BitVec 24) : (s.writeRes v).resValid = true := rfl

/-- A raised fault is not NONE. -/
@[simp] theorem FaultKind.register_ne (k : FaultKind) : k.register ≠ .noFault := by cases k <;> decide

/-- A pressed sample is a low line. -/
theorem State.sample_eq_true (b : Button) : s.sample b = true ↔ s.line b = .low := by simp [State.sample]

end Sys2Proof.Machine
end

