-- ==== Sys2Proof/Laws/Ops.lean ====
section
/-! SUPPORT. One lemma per shared operation, which says everything it can do: operands, the end of a command, the fetch,
the step, and the tasks of the scheduler. -/

namespace Sys2Proof.Machine

/-! ### Operands -/

theorem digitOperand_of_lt {d : Nat} (h : d < 10) : digitOperand d = .ok ⟨d, h⟩ := dif_pos h

theorem digitOperand_of_ge {d : Nat} (h : 9 < d) : digitOperand d = .error .rangeViolation := dif_neg (by omega)

theorem rowOperand_of_lt {r : Nat} (h : r < 5) : rowOperand r = .ok ⟨r, h⟩ := dif_pos h

theorem rowOperand_of_ge {r : Nat} (h : 4 < r) : rowOperand r = .error .rangeViolation := dif_neg (by omega)

theorem pixelOperand_of_lt {i : Nat} (h : i < 25) : pixelOperand i = .ok ⟨i, h⟩ := dif_pos h

theorem pixelOperand_of_ge {i : Nat} (h : 24 < i) : pixelOperand i = .error .rangeViolation := dif_neg (by omega)

/-! ### The FrameBuffer -/

theorem State.fbAll_of_some {s : State} {f : Frame} (h : s.fb = some f) : s.fbAll = .ok f := by
  simp [State.fbAll, h]

theorem State.fbAll_of_none {s : State} (h : s.fb = none) : s.fbAll = .error .unwrittenRead := by
  simp [State.fbAll, h]

theorem State.fbRead_of_some {s : State} {f : Frame} (h : s.fb = some f) (i : Fin 25) : s.fbRead i = .ok f[i] := by
  simp [State.fbRead, State.fbAll_of_some h]

theorem State.fbRead_of_none {s : State} (h : s.fb = none) (i : Fin 25) : s.fbRead i = .error .unwrittenRead := by
  simp [State.fbRead, State.fbAll_of_none h]

/-! ### The end of a command -/

@[simp] theorem conclude_ok (i : Instr) (s : State) (e : Effect) :
    conclude i s (.ok e) = .next (e.after.complete e.cost) := rfl

@[simp] theorem conclude_error (i : Instr) (s : State) (c : FaultKind) :
    conclude i s (.error c) = .next (s.raise c (encode i)) := rfl

/-- A command ends in a completed effect or in a fault taken in the state it began in. -/
theorem conclude_cases {i : Instr} {s t : State} {r : Except FaultKind Effect} (h : conclude i s r = .next t) :
    (∃ e, r = .ok e ∧ t = e.after.complete e.cost) ∨ (∃ k, r = .error k ∧ t = s.raise k (encode i)) := by
  cases r with
  | ok e => exact .inl ⟨e, rfl, (Host.Outcome.next.inj h).symm⟩
  | error c => exact .inr ⟨c, rfl, (Host.Outcome.next.inj h).symm⟩

/-- A command never stops the model. -/
theorem conclude_next (i : Instr) (s : State) (r : Except FaultKind Effect) : ∃ t, conclude i s r = .next t := by
  cases r with
  | ok e => exact ⟨_, rfl⟩
  | error c => exact ⟨_, rfl⟩

/-- What command `i` does in `s`, before its end. -/
def effectOf (i : Instr) (s : State) : Except FaultKind Effect :=
  match i with
  | .lookup d r => lookupEffect d r s
  | .render d c => renderEffect d c s
  | .renders => renderSelection s
  | .fbread n => fbreadEffect n s
  | .emit => emitBuffer s
  | .blink => .ok ⟨blinkTask s, 0⟩
  | .poll b => .ok (pollEffect b s)
  | .selinc => .ok ⟨s.writeDigit (incDigit s.digit), 0⟩
  | .seldec => .ok ⟨s.writeDigit (decDigit s.digit), 0⟩
  | .wait n => .ok ⟨s, n⟩
  | .step => stepEffect s

/-- Every command is its effect, concluded. -/
theorem exec_eq_conclude (i : Instr) (s : State) : exec i s = conclude i s (effectOf i s) := by cases i <;> rfl

/-- A command ends in its completed effect, or in its fault. -/
theorem exec_cases {i : Instr} {s t : State} (h : exec i s = .next t) :
    (∃ e, effectOf i s = .ok e ∧ t = e.after.complete e.cost) ∨
    (∃ k, effectOf i s = .error k ∧ t = s.raise k (encode i)) := by
  rw [exec_eq_conclude] at h
  exact conclude_cases h

/-! ### Fetch and step -/

theorem State.fetch_command {s : State} {i : Instr} (hr : s.fault = .noFault) (hd : decode s.commandWord = .ok i) :
    s.fetch = .ok i := by
  simp [State.fetch, hr, hd]

theorem State.fetch_illegal {s : State} {e : DecodeReject} (hr : s.fault = .noFault)
    (hd : decode s.commandWord = .error e) :
    s.fetch = .error (.next (s.raise .illegalCommand s.commandWord)) := by
  simp [State.fetch, hr, hd]

theorem State.fetch_stopped {s : State} (hr : s.fault ≠ .noFault) : s.fetch = .error (.fault (.stopped s.fault)) := by
  simp [State.fetch, hr]

/-- What a step that answers a next state did: it took ILLEGAL_COMMAND, or it executed the decoded command. -/
theorem step_cases {s t : State} (h : step s = .next t) :
    s.fault = .noFault ∧
    ((∃ e, decode s.commandWord = .error e ∧ t = s.raise .illegalCommand s.commandWord) ∨
      ∃ i, decode s.commandWord = .ok i ∧ exec i s = .next t) := by
  by_cases hr : s.fault = .noFault
  · refine ⟨hr, ?_⟩
    cases hd : decode s.commandWord with
    | ok i =>
      simp only [step, State.fetch_command hr hd] at h
      exact .inr ⟨i, rfl, h⟩
    | error e =>
      simp only [step, State.fetch_illegal hr hd] at h
      exact .inl ⟨e, rfl, (Host.Outcome.next.inj h).symm⟩
  · simp [step, State.fetch_stopped hr] at h

/-! ### The tasks -/

/-- Filling the FrameBuffer from a selected digit of 0 to 9. -/
theorem renderSelection_of_le {s : State} (h : s.digit.toNat < 10) :
    renderSelection s = .ok ⟨s.writeFb (render ⟨s.digit.toNat, h⟩ s.color), 0⟩ := by
  simp [renderSelection, digitOperand_of_lt h]

theorem renderSelection_of_gt {s : State} (h : 9 < s.digit.toNat) : renderSelection s = .error .rangeViolation := by
  simp [renderSelection, digitOperand_of_ge h]

theorem emitBuffer_of_some {s : State} {f : Frame} (h : s.fb = some f) : emitBuffer s = .ok ⟨s.emitFrame f, 0⟩ := by
  simp [emitBuffer, State.fbAll_of_some h]

theorem emitBuffer_of_none {s : State} (h : s.fb = none) : emitBuffer s = .error .unwrittenRead := by
  simp [emitBuffer, State.fbAll_of_none h]

/-- The blinker toggles once, recording the current time, or only drives the status output. -/
theorem blinkTask_cases (s : State) :
    (s.blinkDue = true ∧ blinkTask s = (s.recordToggle (!s.blinkOn) s.now).driveStatus) ∨
    (s.blinkDue = false ∧ blinkTask s = s.driveStatus) := by
  cases h : s.blinkDue <;> simp [blinkTask, h]

/-- A poll accepts a press, returns its button to Idle, or leaves it Suppressed. -/
theorem pollTask_cases (b : Button) (s : State) :
    (s.pollPress b = true ∧ pollTask b s = (s.setBtn b ⟨.suppressed, s.now⟩).writeDigit (pressDigit b s.digit)) ∨
    (s.pollPress b = false ∧ s.pollIdle b = true ∧ pollTask b s = s.setBtn b ⟨.idle, (s.btn b).t⟩) ∨
    (s.pollPress b = false ∧ s.pollIdle b = false ∧ pollTask b s = s.setBtn b ⟨.suppressed, (s.btn b).t⟩) := by
  cases h : s.pollPress b <;> cases h' : s.pollIdle b <;> simp [pollTask, h, h']

/-- When a poll counts its button as Idle. -/
theorem State.pollIdle_iff (s : State) (b : Button) :
    s.pollIdle b = true ↔ (s.btn b).state = .idle ∨ Config.debounceMs ≤ (elapsed s.now (s.btn b).t).toNat := by
  have h : (BitVec.ofNat 32 Config.debounceMs).toNat = Config.debounceMs := rfl
  simp only [State.pollIdle, State.windowOver, State.btnWin, Bool.or_eq_true, decide_eq_true_eq, h]

/-- When a poll accepts a press. -/
theorem State.pollPress_iff (s : State) (b : Button) :
    s.pollPress b = true ↔
      ((s.btn b).state = .idle ∨ Config.debounceMs ≤ (elapsed s.now (s.btn b).t).toNat) ∧ s.line b = .low := by
  rw [State.pollPress, Bool.and_eq_true, State.pollIdle_iff, State.sample_eq_true]

/-- When the blink interval is over. -/
theorem State.blinkDue_iff (s : State) :
    s.blinkDue = true ↔ Config.blinkMs ≤ (elapsed s.now s.blinkT).toNat := by
  have h : (BitVec.ofNat 32 Config.blinkMs).toNat = Config.blinkMs := rfl
  simp only [State.blinkDue, State.blinkWin, decide_eq_true_eq, h]

/-- A poll's cost: the debounce stall, or nothing. -/
theorem pollCost_cases (b : Button) (s : State) :
    (s.pollPress b = true ∧ s.debounceMode = .blocking ∧ pollCost b s = Config.debounceMs) ∨
    ((s.pollPress b = false ∨ s.debounceMode = .timestamped) ∧ pollCost b s = 0) := by
  cases h : s.pollPress b <;> cases h' : s.debounceMode <;> simp [pollCost, h, h']

/-- What LOOKUP does: the mask into `res`, or RANGE_VIOLATION. -/
theorem lookupEffect_cases (d r : Nat) (s : State) :
    (∃ (hd : d < 10) (hr : r < 5),
      lookupEffect d r s = .ok ⟨s.writeRes ((romRead (romAddress ⟨d, hd⟩ ⟨r, hr⟩)).setWidth 24), 0⟩) ∨
    ((9 < d ∨ 4 < r) ∧ lookupEffect d r s = .error .rangeViolation) := by
  by_cases hd : d < 10
  · by_cases hr : r < 5
    · exact .inl ⟨hd, hr, by simp only [lookupEffect, digitOperand_of_lt hd, rowOperand_of_lt hr]⟩
    · have hr' : 4 < r := by omega
      exact .inr ⟨.inr hr', by simp only [lookupEffect, digitOperand_of_lt hd, rowOperand_of_ge hr']⟩
  · have hd' : 9 < d := by omega
    exact .inr ⟨.inl hd', by simp only [lookupEffect, digitOperand_of_ge hd']⟩

/-- What RENDER does: the whole FrameBuffer, or RANGE_VIOLATION. -/
theorem renderEffect_cases (d : Nat) (c : Pixel) (s : State) :
    (∃ hd : d < 10, renderEffect d c s = .ok ⟨s.writeFb (raster ⟨d, hd⟩ c), 0⟩) ∨
    (9 < d ∧ renderEffect d c s = .error .rangeViolation) := by
  by_cases hd : d < 10
  · exact .inl ⟨hd, by simp only [renderEffect, digitOperand_of_lt hd]⟩
  · have hd' : 9 < d := by omega
    exact .inr ⟨hd', by simp only [renderEffect, digitOperand_of_ge hd']⟩

/-- What FBREAD does: the pixel into `res`, RANGE_VIOLATION, or UNWRITTEN_READ. -/
theorem fbreadEffect_cases (i : Nat) (s : State) :
    (∃ (hi : i < 25) (f : Frame), s.fb = some f ∧ fbreadEffect i s = .ok ⟨s.writeRes f[i], 0⟩) ∨
    (24 < i ∧ fbreadEffect i s = .error .rangeViolation) ∨
    (i < 25 ∧ s.fb = none ∧ fbreadEffect i s = .error .unwrittenRead) := by
  by_cases hi : i < 25
  · cases hf : s.fb with
    | some f => exact .inl ⟨hi, f, rfl, by simp [fbreadEffect, pixelOperand_of_lt hi, State.fbRead_of_some hf]⟩
    | none => exact .inr (.inr ⟨hi, rfl, by simp [fbreadEffect, pixelOperand_of_lt hi, State.fbRead_of_none hf]⟩)
  · have hi' : 24 < i := by omega
    exact .inr (.inl ⟨hi', by simp [fbreadEffect, pixelOperand_of_ge hi']⟩)

/-- What RENDERS, and STEP in phase 1, do. -/
theorem renderSelection_cases (s : State) :
    (∃ h : s.digit.toNat < 10, renderSelection s = .ok ⟨s.writeFb (render ⟨s.digit.toNat, h⟩ s.color), 0⟩) ∨
    (9 < s.digit.toNat ∧ renderSelection s = .error .rangeViolation) := by
  by_cases h : s.digit.toNat < 10
  · exact .inl ⟨h, renderSelection_of_le h⟩
  · exact .inr ⟨by omega, renderSelection_of_gt (by omega)⟩

/-- What EMIT, and STEP in phase 2, do. -/
theorem emitBuffer_cases (s : State) :
    (∃ f, s.fb = some f ∧ emitBuffer s = .ok ⟨s.emitFrame f, 0⟩) ∨
    (s.fb = none ∧ emitBuffer s = .error .unwrittenRead) := by
  cases h : s.fb with
  | some f => exact .inl ⟨f, rfl, emitBuffer_of_some h⟩
  | none => exact .inr ⟨rfl, emitBuffer_of_none h⟩

/-- STEP's task, phase by phase. -/
theorem phaseTask_cases (s : State) :
    (s.ph = .blink ∧ phaseTask s = .ok ⟨blinkTask s, 0⟩) ∨ (s.ph = .render ∧ phaseTask s = renderSelection s) ∨
    (s.ph = .emit ∧ phaseTask s = emitBuffer s) ∨ (s.ph = .pollInc ∧ phaseTask s = .ok ⟨pollTask .inc s, pollCost .inc s⟩) ∨
    (s.ph = .pollDec ∧ phaseTask s = .ok ⟨pollTask .dec s, pollCost .dec s⟩) ∨
    (s.ph = .idle ∧ phaseTask s = .ok ⟨s, Config.idleMs⟩) := by
  cases h : s.ph <;> simp [phaseTask, h]

/-- What STEP does: its task and the next phase, or the task's fault. -/
theorem stepEffect_cases (s : State) :
    (∃ e, phaseTask s = .ok e ∧ stepEffect s = .ok ⟨e.after.nextPhase, e.cost⟩) ∨
    (∃ k, phaseTask s = .error k ∧ stepEffect s = .error k) := by
  cases h : phaseTask s with
  | ok e => exact .inl ⟨e, rfl, by simp [stepEffect, h]⟩
  | error k => exact .inr ⟨k, rfl, by simp [stepEffect, h]⟩

end Sys2Proof.Machine
end

