-- ==== Sys2Proof/Laws/Exec.lean ====
section
/-! SUPPORT. What a command can do, said once: the inversion of its effect and of its fault, and the registers a poll
leaves alone. -/

namespace Sys2Proof.Machine

/-- A press leaves a digit of 0 to 9, whatever the digit was. -/
theorem pressDigit_le (b : Button) (d : BitVec 4) : (pressDigit b d).toNat ≤ 9 := by
  cases b <;> simp only [pressDigit, incDigit, decDigit, BitVec.toNat_ofNat] <;> omega

/-- A poll writes its button and the digit, and nothing else. -/
theorem pollTask_frame (b : Button) (s : State) :
    ∃ (r : ButtonRegs) (d : BitVec 4), (d = s.digit ∨ d = pressDigit b s.digit) ∧
      pollTask b s = (s.setBtn b r).writeDigit d := by
  have hsame (r : ButtonRegs) : s.setBtn b r = (s.setBtn b r).writeDigit s.digit := by cases b <;> rfl
  rcases pollTask_cases b s with ⟨-, h⟩ | ⟨-, -, h⟩ | ⟨-, -, h⟩
  · exact ⟨_, _, .inr rfl, h⟩
  · exact ⟨_, s.digit, .inl rfl, h.trans (hsame _)⟩
  · exact ⟨_, s.digit, .inl rfl, h.trans (hsame _)⟩

/-- The effect of STEP, phase by phase. -/
def StepDoes (s : State) (e : Effect) : Prop :=
  (s.ph = .blink ∧ e = ⟨(blinkTask s).nextPhase, 0⟩) ∨
  (s.ph = .render ∧ ∃ h : s.digit.toNat < 10, e = ⟨(s.writeFb (render ⟨_, h⟩ s.color)).nextPhase, 0⟩) ∨
  (s.ph = .emit ∧ ∃ f, s.fb = some f ∧ e = ⟨(s.emitFrame f).nextPhase, 0⟩) ∨
  (s.ph = .pollInc ∧ e = ⟨(pollTask .inc s).nextPhase, pollCost .inc s⟩) ∨
  (s.ph = .pollDec ∧ e = ⟨(pollTask .dec s).nextPhase, pollCost .dec s⟩) ∨
  (s.ph = .idle ∧ e = ⟨s.nextPhase, Config.idleMs⟩)

/-- What an unfaulted STEP did. -/
theorem stepEffect_ok {s : State} {e : Effect} (h : stepEffect s = .ok e) : StepDoes s e := by
  rcases stepEffect_cases s with ⟨e', he, h'⟩ | ⟨k, -, h'⟩
  · obtain rfl : _ = e := Except.ok.inj (h'.symm.trans h)
    rcases phaseTask_cases s with ⟨hp, ht⟩ | ⟨hp, ht⟩ | ⟨hp, ht⟩ | ⟨hp, ht⟩ | ⟨hp, ht⟩ | ⟨hp, ht⟩ <;> rw [ht] at he
    · exact .inl ⟨hp, by cases he; rfl⟩
    · rcases renderSelection_cases s with ⟨hd, hr⟩ | ⟨-, hr⟩ <;> rw [hr] at he <;> cases he
      exact .inr (.inl ⟨hp, hd, rfl⟩)
    · rcases emitBuffer_cases s with ⟨f, hf, hr⟩ | ⟨-, hr⟩ <;> rw [hr] at he <;> cases he
      exact .inr (.inr (.inl ⟨hp, f, hf, rfl⟩))
    · exact .inr (.inr (.inr (.inl ⟨hp, by cases he; rfl⟩)))
    · exact .inr (.inr (.inr (.inr (.inl ⟨hp, by cases he; rfl⟩))))
    · exact .inr (.inr (.inr (.inr (.inr ⟨hp, by cases he; rfl⟩))))
  · rw [h'] at h; cases h

/-- What an unfaulted command did. -/
theorem effectOf_ok {i : Instr} {s : State} {e : Effect} (h : effectOf i s = .ok e) :
    (∃ v, e = ⟨s.writeRes v, 0⟩ ∧ ((∃ d r, i = .lookup d r) ∨ ∃ n, i = .fbread n)) ∨
    (∃ f, e = ⟨s.writeFb f, 0⟩ ∧ ((∃ d c, i = .render d c) ∨ i = .renders)) ∨
    (∃ f, s.fb = some f ∧ e = ⟨s.emitFrame f, 0⟩ ∧ i = .emit) ∨
    (e = ⟨blinkTask s, 0⟩ ∧ i = .blink) ∨
    (∃ b, e = pollEffect b s ∧ i = .poll b) ∨
    (∃ d : BitVec 4, d.toNat ≤ 9 ∧ e = ⟨s.writeDigit d, 0⟩ ∧ (i = .selinc ∨ i = .seldec)) ∨
    (∃ n, e = ⟨s, n⟩ ∧ i = .wait n) ∨
    (i = .step ∧ StepDoes s e) := by
  cases i with
  | lookup d r =>
    rcases lookupEffect_cases d r s with ⟨hd, hr, h'⟩ | ⟨-, h'⟩ <;> rw [effectOf, h'] at h <;> cases h
    exact .inl ⟨_, rfl, .inl ⟨_, _, rfl⟩⟩
  | render d c =>
    rcases renderEffect_cases d c s with ⟨hd, h'⟩ | ⟨-, h'⟩ <;> rw [effectOf, h'] at h <;> cases h
    exact .inr (.inl ⟨_, rfl, .inl ⟨_, _, rfl⟩⟩)
  | renders =>
    rcases renderSelection_cases s with ⟨hd, h'⟩ | ⟨-, h'⟩ <;> rw [effectOf, h'] at h <;> cases h
    exact .inr (.inl ⟨_, rfl, .inr rfl⟩)
  | fbread n =>
    rcases fbreadEffect_cases n s with ⟨hi, f, hf, h'⟩ | ⟨-, h'⟩ | ⟨-, -, h'⟩ <;> rw [effectOf, h'] at h <;> cases h
    exact .inl ⟨_, rfl, .inr ⟨_, rfl⟩⟩
  | emit =>
    rcases emitBuffer_cases s with ⟨f, hf, h'⟩ | ⟨-, h'⟩ <;> rw [effectOf, h'] at h <;> cases h
    exact .inr (.inr (.inl ⟨f, hf, rfl, rfl⟩))
  | blink => cases h; exact .inr (.inr (.inr (.inl ⟨rfl, rfl⟩)))
  | poll b => cases h; exact .inr (.inr (.inr (.inr (.inl ⟨b, rfl, rfl⟩))))
  | selinc => cases h; exact .inr (.inr (.inr (.inr (.inr (.inl ⟨_, pressDigit_le .inc s.digit, rfl, .inl rfl⟩)))))
  | seldec => cases h; exact .inr (.inr (.inr (.inr (.inr (.inl ⟨_, pressDigit_le .dec s.digit, rfl, .inr rfl⟩)))))
  | wait n => cases h; exact .inr (.inr (.inr (.inr (.inr (.inr (.inl ⟨n, rfl, rfl⟩))))))
  | step => exact .inr (.inr (.inr (.inr (.inr (.inr (.inr ⟨rfl, stepEffect_ok h⟩))))))

/-- Why a command faulted. -/
theorem effectOf_error {i : Instr} {s : State} {k : FaultKind} (h : effectOf i s = .error k) :
    (k = .rangeViolation ∧
      ((∃ d r, i = .lookup d r ∧ (9 < d ∨ 4 < r)) ∨ (∃ d c, i = .render d c ∧ 9 < d) ∨
        (∃ n, i = .fbread n ∧ 24 < n) ∨ (9 < s.digit.toNat ∧ (i = .renders ∨ (i = .step ∧ s.ph = .render))))) ∨
    (k = .unwrittenRead ∧ s.fb = none ∧
      ((∃ n, i = .fbread n ∧ n < 25) ∨ i = .emit ∨ (i = .step ∧ s.ph = .emit))) := by
  cases i with
  | lookup d r =>
    rcases lookupEffect_cases d r s with ⟨hd, hr, h'⟩ | ⟨hd, h'⟩ <;> rw [effectOf, h'] at h <;> cases h
    exact .inl ⟨rfl, .inl ⟨d, r, rfl, hd⟩⟩
  | render d c =>
    rcases renderEffect_cases d c s with ⟨hd, h'⟩ | ⟨hd, h'⟩ <;> rw [effectOf, h'] at h <;> cases h
    exact .inl ⟨rfl, .inr (.inl ⟨d, c, rfl, hd⟩)⟩
  | renders =>
    rcases renderSelection_cases s with ⟨hd, h'⟩ | ⟨hd, h'⟩ <;> rw [effectOf, h'] at h <;> cases h
    exact .inl ⟨rfl, .inr (.inr (.inr ⟨hd, .inl rfl⟩))⟩
  | fbread n =>
    rcases fbreadEffect_cases n s with ⟨hi, f, hf, h'⟩ | ⟨hi, h'⟩ | ⟨hi, hf, h'⟩ <;> rw [effectOf, h'] at h <;> cases h
    · exact .inl ⟨rfl, .inr (.inr (.inl ⟨n, rfl, hi⟩))⟩
    · exact .inr ⟨rfl, hf, .inl ⟨n, rfl, hi⟩⟩
  | emit =>
    rcases emitBuffer_cases s with ⟨f, hf, h'⟩ | ⟨hf, h'⟩ <;> rw [effectOf, h'] at h <;> cases h
    exact .inr ⟨rfl, hf, .inr (.inl rfl)⟩
  | blink => cases h
  | poll b => cases h
  | selinc => cases h
  | seldec => cases h
  | wait n => cases h
  | step =>
    rcases stepEffect_cases s with ⟨e, -, h'⟩ | ⟨k', hk, h'⟩ <;> rw [effectOf, h'] at h <;> cases h
    rcases phaseTask_cases s with ⟨hp, ht⟩ | ⟨hp, ht⟩ | ⟨hp, ht⟩ | ⟨hp, ht⟩ | ⟨hp, ht⟩ | ⟨hp, ht⟩ <;> rw [ht] at hk
    · cases hk
    · rcases renderSelection_cases s with ⟨hd, hr⟩ | ⟨hd, hr⟩ <;> rw [hr] at hk <;> cases hk
      exact .inl ⟨rfl, .inr (.inr (.inr ⟨hd, .inr ⟨rfl, hp⟩⟩))⟩
    · rcases emitBuffer_cases s with ⟨f, hf, hr⟩ | ⟨hf, hr⟩ <;> rw [hr] at hk <;> cases hk
      exact .inr ⟨rfl, hf, .inr (.inr ⟨rfl, hp⟩)⟩
    all_goals cases hk

end Sys2Proof.Machine
end

