-- ==== Sys2Proof/Laws/PerInstr.lean ====
section
/-! SUPPORT. Per-instruction families. `OpcodeNibble`: a well-formed command's word carries its opcode in bits [31:28]
(30_encoding.md R71, R72). -/

namespace Sys2Proof.Laws.OpcodeNibble

/-- The word of a well-formed command has the command's opcode in bits [31:28]. -/
def Statement (i : Instr) : Prop := i.WellFormed → bits (encode i) 28 4 = i.opcode

theorem lookup (d r : Nat) : Statement (.lookup d r) := by
  intro h
  simp only [Instr.WellFormed, Instr.wellFormed, Bool.and_eq_true, decide_eq_true_eq] at h
  simp only [encode, bits, BitVec.toNat_ofNat, Instr.opcode]
  omega

theorem render (d : Nat) (c : Pixel) : Statement (.render d c) := by
  intro h
  have hc := c.isLt
  simp only [Instr.WellFormed, Instr.wellFormed, decide_eq_true_eq] at h
  simp only [encode, bits, BitVec.toNat_ofNat, Instr.opcode]
  omega

theorem renders : Statement .renders := fun _ => by decide

theorem fbread (i : Nat) : Statement (.fbread i) := by
  intro h
  simp only [Instr.WellFormed, Instr.wellFormed, decide_eq_true_eq] at h
  simp only [encode, bits, BitVec.toNat_ofNat, Instr.opcode]
  omega

theorem emit : Statement .emit := fun _ => by decide

theorem blink : Statement .blink := fun _ => by decide

theorem poll (b : Button) : Statement (.poll b) := fun _ => by cases b <;> decide

theorem selinc : Statement .selinc := fun _ => by decide

theorem seldec : Statement .seldec := fun _ => by decide

theorem wait (n : Nat) : Statement (.wait n) := by
  intro h
  simp only [Instr.WellFormed, Instr.wellFormed, decide_eq_true_eq] at h
  simp only [encode, bits, BitVec.toNat_ofNat, Instr.opcode]
  omega

theorem step : Statement .step := fun _ => by decide

end Sys2Proof.Laws.OpcodeNibble
end

