-- ==== Sys2Proof/Laws/Run.lean ====
section
/-! SUPPORT. Runs: how steps compose, how the stream and the draws ahead move with a step, and what one STEP of the main
loop answers, phase by phase. -/

namespace Sys2Proof.Machine

/-! ### Steps in a row -/

@[simp] theorem runSteps_zero (s : State) : runSteps 0 s = .next s := rfl

theorem runSteps_succ {s t : State} (h : step s = .next t) (k : Nat) : runSteps (k + 1) s = runSteps k t := by
  simp [runSteps, h]

theorem runSteps_add {s t : State} {j : Nat} (h : runSteps j s = .next t) (k : Nat) :
    runSteps (j + k) s = runSteps k t := by
  induction j generalizing s with
  | zero => cases h; rw [Nat.zero_add]
  | succ j ih =>
    cases hs : step s with
    | next u =>
      rw [runSteps_succ hs] at h
      rw [Nat.succ_add, runSteps_succ hs, ih h]
    | fault r => simp [runSteps, hs] at h
    | refused r => simp [runSteps, hs] at h

/-! ### What lies ahead -/

@[simp] theorem State.drawAhead_zero (s : State) : s.drawAhead 0 = s.draw := by
  unfold State.drawAhead State.draw
  cases s.script <;> rfl

/-- A state whose draws are those of `s` after its next j. -/
theorem State.drawAhead_of_drop {s t : State} {j : Nat} (hs : t.script = s.script.drop j) (hi : t.drawIx = s.drawIx + j)
    (k : Nat) : t.drawAhead k = s.drawAhead (j + k) := by
  simp [State.drawAhead, hs, hi, Nat.add_assoc]

theorem State.drawsAhead_drop {s t : State} {j k : Nat} {d : EnvDraw} (hs : t.script = s.script.drop j)
    (hi : t.drawIx = s.drawIx + j) (h : s.drawsAhead (j + k) d) : t.drawsAhead k d := fun n hn => by
  rw [State.drawAhead_of_drop hs hi]
  exact h _ (by omega)

theorem State.drawsAhead_mono {s : State} {j k : Nat} {d : EnvDraw} (hjk : j ≤ k) (h : s.drawsAhead k d) :
    s.drawsAhead j d := fun n hn => h n (by omega)

/-- Scripted draws lie ahead. -/
theorem State.drawsAhead_replicate {s : State} {k : Nat} {d : EnvDraw} (h : s.script = List.replicate k d) :
    s.drawsAhead k d := fun n hn => by
  simp [State.drawAhead, h, hn]

theorem State.stepsAhead_drop {s t : State} {j k : Nat} (hm : t.stream = s.stream) (hp : t.pc = s.pc + j)
    (h : s.stepsAhead (j + k)) : t.stepsAhead k := fun n hn => by
  rw [hm, hp, Nat.add_assoc]
  exact h _ (by omega)

theorem State.stepsAhead_mono {s : State} {j k : Nat} (hjk : j ≤ k) (h : s.stepsAhead k) : s.stepsAhead j :=
  fun n hn => h n (by omega)

/-! ### One STEP, phase by phase -/

/-- With STEP ahead, a step is STEP's effect, concluded. -/
theorem step_of_stepsAhead {s : State} {k : Nat} (hr : s.running) (h : s.stepsAhead (k + 1)) :
    step s = conclude .step s (stepEffect s) := by
  have hd : decode s.commandWord = .ok .step := by
    rw [State.commandWord, ← Nat.add_zero s.pc, h 0 (Nat.succ_pos k)]
    decide
  simp only [step, State.fetch_command hr hd, exec, execStep]

section
variable {s : State} {k : Nat} (hr : s.running) (h : s.stepsAhead (k + 1))
include hr h

theorem step_blink (hp : s.ph = .blink) : step s = .next ((blinkTask s).nextPhase.complete 0) := by
  simp [step_of_stepsAhead hr h, stepEffect, phaseTask, hp]

theorem step_render (hp : s.ph = .render) (hd : s.digit.toNat ≤ 9) :
    step s = .next ((s.writeFb s.selectedFrame).nextPhase.complete 0) := by
  have hlt : s.digit.toNat < 10 := by omega
  have hf : s.selectedFrame = render ⟨s.digit.toNat, hlt⟩ s.color :=
    congrArg (render · s.color) (Fin.ext (Nat.mod_eq_of_lt hlt))
  simp [step_of_stepsAhead hr h, stepEffect, phaseTask, hp, renderSelection_of_le hlt, hf]

theorem step_emit (hp : s.ph = .emit) {f : Frame} (hf : s.fb = some f) :
    step s = .next ((s.emitFrame f).nextPhase.complete 0) := by
  simp [step_of_stepsAhead hr h, stepEffect, phaseTask, hp, emitBuffer_of_some hf]

theorem step_pollInc (hp : s.ph = .pollInc) :
    step s = .next ((pollTask .inc s).nextPhase.complete (pollCost .inc s)) := by
  simp [step_of_stepsAhead hr h, stepEffect, phaseTask, hp]

theorem step_pollDec (hp : s.ph = .pollDec) :
    step s = .next ((pollTask .dec s).nextPhase.complete (pollCost .dec s)) := by
  simp [step_of_stepsAhead hr h, stepEffect, phaseTask, hp]

theorem step_idle (hp : s.ph = .idle) : step s = .next (s.nextPhase.complete Config.idleMs) := by
  simp [step_of_stepsAhead hr h, stepEffect, phaseTask, hp]

end

end Sys2Proof.Machine
end

