-- ==== Sys2Proof/Laws/Stream.lean ====
section
/-! SUPPORT. The command stream's laws: a placement keeps the canonical form, reads back, and leaves every other index
alone. -/

namespace Sys2Proof.Machine

@[simp] theorem Stream.read_nil (a : Nat) : Stream.read [] a = unplacedWord := rfl

@[simp] theorem Stream.read_cons (k : Nat) (w : Word) (m : Stream) (a : Nat) :
    Stream.read ((k, w) :: m) a = if k = a then w else Stream.read m a := rfl

@[simp] theorem Stream.wf_nil : Stream.wf [] = true := rfl

theorem Stream.wf_reset : Stream.wf State.reset.stream = true := Stream.wf_nil

/-- The canonical form as a proposition. -/
theorem Stream.wf_iff {m : Stream} :
    Stream.wf m = true ↔ m.Pairwise (fun x y => x.1 < y.1) ∧ ∀ e ∈ m, e.2 ≠ unplacedWord := by
  simp [Stream.wf]

theorem Stream.wf_cons {k : Nat} {v : Word} {m : Stream} :
    Stream.wf ((k, v) :: m) = true ↔ (∀ e ∈ m, k < e.1) ∧ v ≠ unplacedWord ∧ Stream.wf m = true := by
  simp only [Stream.wf_iff, List.pairwise_cons, List.mem_cons, forall_eq_or_imp]
  tauto

/-- An index below every entry reads as unplaced. -/
theorem Stream.read_below {a : Nat} {m : Stream} (h : ∀ e ∈ m, a < e.1) : Stream.read m a = unplacedWord := by
  induction m with
  | nil => rfl
  | cons e m ih =>
    have hne : e.1 ≠ a := by have := h e (by simp); omega
    rw [show e = (e.1, e.2) from rfl, Stream.read_cons, if_neg hne]
    exact ih fun x hx => h x (by simp [hx])

/-- A placement lists only indices that were listed, and its own. -/
theorem Stream.mem_place {m : Stream} {a : Nat} {w : Word} {e : Nat × Word} (h : e ∈ Stream.place m a w) :
    e ∈ m ∨ e = (a, w) := by
  induction m with
  | nil =>
    simp only [Stream.place] at h
    split at h <;> simp_all
  | cons x m ih =>
    obtain ⟨k, v⟩ := x
    simp only [Stream.place] at h
    split at h
    · split at h <;> simp_all; tauto
    · split at h
      · split at h <;> simp_all; tauto
      · simp only [List.mem_cons] at h ⊢
        rcases h with h | h
        · exact .inl (.inl h)
        · rcases ih h with h | h
          · exact .inl (.inr h)
          · exact .inr h

/-- Every placement keeps the canonical form. -/
theorem Stream.wf_place {m : Stream} (a : Nat) (w : Word) (h : Stream.wf m = true) :
    Stream.wf (Stream.place m a w) = true := by
  induction m with
  | nil =>
    simp only [Stream.place]
    split
    · exact h
    · next hw => exact Stream.wf_cons.2 ⟨by simp, hw, Stream.wf_nil⟩
  | cons x m ih =>
    obtain ⟨k, v⟩ := x
    obtain ⟨hk, hv, hm⟩ := Stream.wf_cons.1 h
    simp only [Stream.place]
    split
    · next hak =>
      split
      · exact h
      · next hw =>
        refine Stream.wf_cons.2 ⟨?_, hw, h⟩
        intro e he
        rcases List.mem_cons.1 he with rfl | he
        · exact hak
        · exact Nat.lt_trans hak (hk e he)
    · split
      · next hak =>
        subst hak
        split
        · exact hm
        · next hw => exact Stream.wf_cons.2 ⟨hk, hw, hm⟩
      · refine Stream.wf_cons.2 ⟨?_, hv, ih hm⟩
        intro e he
        rcases Stream.mem_place he with he | rfl
        · exact hk e he
        · show k < a
          omega

/-- A placed word is read back. -/
theorem Stream.read_place_same {m : Stream} (a : Nat) (w : Word) (h : Stream.wf m = true) :
    Stream.read (Stream.place m a w) a = w := by
  induction m with
  | nil =>
    simp only [Stream.place]
    split <;> simp_all
  | cons x m ih =>
    obtain ⟨k, v⟩ := x
    obtain ⟨hk, -, hm⟩ := Stream.wf_cons.1 h
    simp only [Stream.place]
    split
    · next hak =>
      split
      · next hw =>
        rw [hw]
        refine Stream.read_below fun e he => ?_
        rcases List.mem_cons.1 he with rfl | he
        · exact hak
        · exact Nat.lt_trans hak (hk e he)
      · simp
    · split
      · next hak =>
        subst hak
        split
        · next hw => rw [hw]; exact Stream.read_below hk
        · simp
      · next hak => rw [Stream.read_cons, if_neg (fun hka => hak hka.symm), ih hm]

/-- A placement leaves every other index alone. -/
theorem Stream.read_place_other (m : Stream) {a b : Nat} (w : Word) (hab : b ≠ a) :
    Stream.read (Stream.place m a w) b = Stream.read m b := by
  have hba : a ≠ b := fun h => hab h.symm
  induction m with
  | nil =>
    simp only [Stream.place]
    split <;> simp [hba]
  | cons x m ih =>
    obtain ⟨k, v⟩ := x
    simp only [Stream.place]
    split
    · split <;> simp [hba]
    · split
      · next hak =>
        subst hak
        split <;> simp [hba]
      · simp [ih]

/-- The word that `withFetchWord` places is the one the CORE fetches next. -/
theorem State.commandWord_withFetchWord (s : State) (nbits w : Nat) (h : Stream.wf s.stream = true) :
    (s.withFetchWord nbits w).commandWord = tableWord nbits w :=
  Stream.read_place_same _ _ h

end Sys2Proof.Machine
end

