-- ==== Sys2Proof/Tests/Slice0.lean ====
section
/-! SUPPORT. The model's own tests: the well-formedness smoke test, one decoded word per command written out from the spec's
encoding, single steps of the spec's vectors, and the witnesses that the statements' hypotheses can be met. -/

namespace Sys2Proof.Tests

open Sys2Proof.Machine

/-! ### Well-formedness: one ill-formed term for each check (30_encoding.md R80) -/

theorem test_wf_refuses_lookup_digit : Instr.wellFormed (.lookup 16 0) = false := by decide
theorem test_wf_refuses_lookup_row : Instr.wellFormed (.lookup 0 16) = false := by decide
theorem test_wf_refuses_render_digit : Instr.wellFormed (.render 16 0#24) = false := by decide
theorem test_wf_refuses_fbread_index : Instr.wellFormed (.fbread 32) = false := by decide
theorem test_wf_refuses_wait_time : Instr.wellFormed (.wait 65536) = false := by decide

/-! ### Decoding: words written bit by bit from R72 -/

theorem test_decode_lookup : decode 0b00010000000000000000000001001001#32 = .ok (.lookup 9 4) := by decide
theorem test_decode_render :
    decode 0b00100011000000001111111100000001#32 = .ok (.render 3 0x00FF01#24) := by decide
theorem test_decode_renders : decode 0b00110000000000000000000000000000#32 = .ok .renders := by decide
theorem test_decode_fbread : decode 0b01000000000000000000000000011000#32 = .ok (.fbread 24) := by decide
theorem test_decode_emit : decode 0b01010000000000000000000000000000#32 = .ok .emit := by decide
theorem test_decode_blink : decode 0b01100000000000000000000000000000#32 = .ok .blink := by decide
theorem test_decode_poll_inc : decode 0b01110000000000000000000000000000#32 = .ok (.poll .inc) := by decide
theorem test_decode_poll_dec : decode 0b01110000000000000000000000000001#32 = .ok (.poll .dec) := by decide
theorem test_decode_selinc : decode 0b10000000000000000000000000000000#32 = .ok .selinc := by decide
theorem test_decode_seldec : decode 0b10010000000000000000000000000000#32 = .ok .seldec := by decide
theorem test_decode_wait : decode 0b10100000000000000000000001100100#32 = .ok (.wait 100) := by decide
theorem test_decode_step : decode 0b10110000000000000000000000000000#32 = .ok .step := by decide
theorem test_decode_reserved_bit : decode 0b01110000000000000000000000000010#32 = .error .reservedBits := by decide
theorem test_decode_reserved_opcode : decode 0b11000000000000000000000000000000#32 = .error .reservedOpcode := by decide

/-! ### Single steps: the vectors of 95_test_vectors.md -/

/-- What holds of the next state of a step, if there is one. -/
def stepThen (s : State) (p : State → Bool) : Bool :=
  match step s with
  | .next t => p t
  | .fault _ => false
  | .refused _ => false

/-- A state about to run one command under ideal timing, with both lines at a level. -/
def about (s : State) (w : Word) (l : Level) : State :=
  (s.placeCommand s.pc w).scriptDraws [⟨l, l, 0⟩]

/-- The reset state after `RENDER 3, #00FF00` (V1). -/
def rendered : State := { State.reset with fb := some (render 3 0x00FF00#24) }

/-- A button suppressed at time 0, at a later time (V29 to V31). -/
def suppressedAt (t : Time) : State :=
  { State.reset with btnInc := ⟨.suppressed, 0#32⟩, now := t, digit := 1#4 }

/-- V11. -/
theorem test_lookup_row : stepThen (about State.reset 0x10000013#32 .high)
    (fun t => t.res = some 0x000001#24 && t.pc = 1 && t.fault = .noFault) = true := by decide

/-- V13. -/
theorem test_lookup_out_of_range : stepThen (about State.reset 0x1000000A#32 .high)
    (fun t => t.fault.code = 2#2 && t.faultWord = 0x1000000A#32 && t.pc = 0 && !t.resValid) = true := by decide

/-- V1. -/
theorem test_render_digit_3 : stepThen (about State.reset 0x2300FF00#32 .high)
    (fun t => t.viewPixel 9 = some 0x00FF00#32 && t.viewPixel 5 = some 0#32 && t.viewPixel 18 = some 0#32 &&
      t.viewPixel 20 = some 0x00FF00#32) = true := by decide

/-- V19. -/
theorem test_render_out_of_range : stepThen (about State.reset 0x2AFF0000#32 .high)
    (fun t => t.fault.code = 2#2 && !t.fbValid) = true := by decide

/-- V22. -/
theorem test_renders_digit_3 : stepThen (about { State.reset with digit := 3#4 } 0x30000000#32 .high)
    (fun t => t.viewPixel 0 = some 0xFF0000#32 && t.viewPixel 9 = some 0xFF0000#32 && t.viewPixel 5 = some 0#32 &&
      t.viewPixel 18 = some 0#32) = true := by decide

/-- V25. -/
theorem test_fbread_last_pixel : stepThen (about rendered 0x40000018#32 .high)
    (fun t => t.res = some 0x00FF00#24) = true := by decide

/-- V24: RANGE_VIOLATION before UNWRITTEN_READ. -/
theorem test_fbread_priority : stepThen (about State.reset 0x4000001E#32 .high)
    (fun t => t.fault.code = 2#2) = true := by decide

/-- V27. -/
theorem test_emit_frame : stepThen (about rendered 0x50000000#32 .high)
    (fun t => t.trace = [render 3 0x00FF00#24] && t.pc = 1) = true := by decide

/-- V26. -/
theorem test_emit_unwritten : stepThen (about State.reset 0x50000000#32 .high)
    (fun t => t.fault.code = 3#2 && t.trace = []) = true := by decide

/-- V42. -/
theorem test_blink_at_100 : stepThen (about { State.reset with now := 100#32 } 0x60000000#32 .high)
    (fun t => t.blinkOn && t.blinkT = 100#32 && t.statusOut) = true := by decide

/-- V41. -/
theorem test_blink_at_99 : stepThen (about { State.reset with now := 99#32 } 0x60000000#32 .high)
    (fun t => !t.blinkOn && t.blinkT = 0#32) = true := by decide

/-- V30. -/
theorem test_poll_at_200 : stepThen (about (suppressedAt 200#32) 0x70000000#32 .low)
    (fun t => t.res = some 1#24 && t.digit = 2#4 && t.btnInc = ⟨.suppressed, 200#32⟩ && t.now = 400#32) = true := by decide

/-- V35: the window measured across the wrap of `now`. -/
theorem test_poll_across_wrap : stepThen
    (about { State.reset with btnInc := ⟨.suppressed, 0xFFFFFF9C#32⟩, now := 100#32 } 0x70000000#32 .high)
    (fun t => t.btnInc.state = .idle && t.res = some 0#24) = true := by decide

/-- V37. -/
theorem test_selinc_wraps : stepThen (about { State.reset with digit := 9#4 } 0x80000000#32 .high)
    (fun t => t.digit = 0#4) = true := by decide

/-- V3. -/
theorem test_seldec_wraps : stepThen (about State.reset 0x90000000#32 .high) (fun t => t.digit = 9#4) = true := by decide

/-- V47. -/
theorem test_wait_wraps : stepThen (about { State.reset with now := 0xFFFF0001#32 } 0xA000FFFF#32 .high)
    (fun t => t.now = 0#32 && t.pc = 1) = true := by decide

/-- V51: STEP does not write `res`. -/
theorem test_step_poll : stepThen (about { State.reset with ph := .pollInc } 0xB0000000#32 .low)
    (fun t => t.digit = 1#4 && t.btnInc.state = .suppressed && t.now = 200#32 && t.ph = .pollDec && !t.resValid) = true := by
  decide

/-- V34: no stall in TIMESTAMPED mode. -/
theorem test_step_timestamped : stepThen
    (about { State.reset with ph := .pollInc, debounceMode := .timestamped } 0xB0000000#32 .low)
    (fun t => t.digit = 1#4 && t.now = 0#32) = true := by decide

/-- V53. -/
theorem test_zero_word_illegal : stepThen (about State.reset 0x00000000#32 .high)
    (fun t => t.fault.code = 1#2 && t.faultWord = 0#32 && t.pc = 0) = true := by decide

/-- V57. -/
theorem test_step_reserved_bit_illegal : stepThen (about State.reset 0xB0000001#32 .high)
    (fun t => t.fault.code = 1#2 && t.ph = .blink) = true := by decide

/-- R202: a frame's data takes 750 µs on the wire. -/
theorem test_frame_time : frameDataNs = 750000 := by decide

/-- R119: the bytes of one pixel go out green, red, blue. -/
theorem test_pixel_bytes : pixelBytes 0x123456#24 = [0x34#8, 0x12#8, 0x56#8] := by decide

/-! ### Witnesses: states and operands that meet the statements' hypotheses -/

/-- The words of an opcode that spell a command and those that do not. -/
theorem witness_spells :
    0x10000049#32 &&& 0xFFFFFF00#32 = 0x10000000#32 ∧
    (bits 0x10000100#32 28 4 = 0x1 ∧ 0x10000100#32 &&& 0xFFFFFF00#32 ≠ 0x10000000#32) ∧
    0x29FFFFFF#32 &&& 0xF0000000#32 = 0x20000000#32 ∧ bits 0x29FFFFFF#32 28 4 = 0x2 ∧
    (bits 0x30000001#32 28 4 = 0x3 ∧ 0x30000001#32 &&& 0xFFFFFFFF#32 ≠ 0x30000000#32) ∧
    0x4000001F#32 &&& 0xFFFFFFE0#32 = 0x40000000#32 ∧
    (bits 0x40000020#32 28 4 = 0x4 ∧ 0x40000020#32 &&& 0xFFFFFFE0#32 ≠ 0x40000000#32) ∧
    (bits 0x58000000#32 28 4 = 0x5 ∧ 0x58000000#32 &&& 0xFFFFFFFF#32 ≠ 0x50000000#32) ∧
    (bits 0x60000001#32 28 4 = 0x6 ∧ 0x60000001#32 &&& 0xFFFFFFFF#32 ≠ 0x60000000#32) ∧
    0x70000001#32 &&& 0xFFFFFFFE#32 = 0x70000000#32 ∧
    (bits 0x70000002#32 28 4 = 0x7 ∧ 0x70000002#32 &&& 0xFFFFFFFE#32 ≠ 0x70000000#32) ∧
    (bits 0x80000001#32 28 4 = 0x8 ∧ 0x80000001#32 &&& 0xFFFFFFFF#32 ≠ 0x80000000#32) ∧
    (bits 0x90000001#32 28 4 = 0x9 ∧ 0x90000001#32 &&& 0xFFFFFFFF#32 ≠ 0x90000000#32) ∧
    0xA000FFFF#32 &&& 0xFFFF0000#32 = 0xA0000000#32 ∧
    (bits 0xA0010000#32 28 4 = 0xA ∧ 0xA0010000#32 &&& 0xFFFF0000#32 ≠ 0xA0000000#32) ∧
    (bits 0xB0000001#32 28 4 = 0xB ∧ 0xB0000001#32 &&& 0xFFFFFFFF#32 ≠ 0xB0000000#32) := by decide

/-- The last legal operands and the first illegal ones, and both states of the FrameBuffer: LOOKUP, RENDER, FBREAD, EMIT and
the unwritten reads. -/
theorem witness_operands :
    ((9 ≤ 9 ∧ 4 ≤ 4) ∧ (9 < 10 ∨ 4 < 0) ∧ (9 < 0 ∨ 4 < 5) ∧ 24 ≤ 24 ∧ 24 < 25) ∧
    rendered.fb = some (render 3 0x00FF00#24) ∧ State.reset.fb = none ∧ State.reset.res = none := by
  refine ⟨by decide, rfl, rfl, rfl⟩

/-- A selected digit at the last legal value, and one that no run reaches (RENDERS, STEP in phase 1). -/
theorem witness_selected_digit :
    ({ State.reset with digit := 9#4 } : State).digit.toNat ≤ 9 ∧
    (9 < ({ State.reset with digit := 10#4, ph := .render } : State).digit.toNat ∧
      ({ State.reset with digit := 10#4, ph := .render } : State).ph = .render) := by decide

/-- BLINK at exactly the interval, and one millisecond before it. -/
theorem witness_blink :
    100 ≤ (({ State.reset with now := 100#32 } : State).now - State.reset.blinkT).toNat ∧
    (({ State.reset with now := 99#32 } : State).now - State.reset.blinkT).toNat < 100 := by decide

/-- POLL of either button: idle, at the end of the window and inside it, with the line low and high. -/
theorem witness_poll :
    ((suppressedAt 200#32).btnInc.state = .idle ∨ 200 ≤ ((suppressedAt 200#32).now - (suppressedAt 200#32).btnInc.t).toNat) ∧
    (about (suppressedAt 200#32) 0x70000000#32 .low).draw.btnIncN = .low ∧
    (about (suppressedAt 200#32) 0x70000000#32 .high).draw.btnIncN = .high ∧
    ((suppressedAt 199#32).btnInc.state = .suppressed ∧
      ((suppressedAt 199#32).now - (suppressedAt 199#32).btnInc.t).toNat < 200) ∧
    State.reset.btnDec.state = .idle ∧
    (about State.reset 0x70000001#32 .low).draw.btnDecN = .low ∧
    (about State.reset 0x70000001#32 .high).draw.btnDecN = .high ∧
    (({ State.reset with btnDec := ⟨.suppressed, 0#32⟩, now := 199#32 } : State).btnDec.state = .suppressed ∧
      (({ State.reset with btnDec := ⟨.suppressed, 0#32⟩, now := 199#32 } : State).now -
        ({ State.reset with btnDec := ⟨.suppressed, 0#32⟩, now := 199#32 } : State).btnDec.t).toNat < 200) := by decide

/-- STEP in every phase, with the FrameBuffer written and unwritten in phase 2. -/
theorem witness_step_phases :
    State.reset.ph = .blink ∧ ({ State.reset with ph := .render } : State).ph = .render ∧
    (({ rendered with ph := .emit } : State).ph = .emit ∧ ({ rendered with ph := .emit } : State).fb = rendered.fb) ∧
    (({ State.reset with ph := .emit } : State).ph = .emit ∧ ({ State.reset with ph := .emit } : State).fb = none) ∧
    ({ State.reset with ph := .pollInc } : State).ph = .pollInc ∧
    ({ State.reset with ph := .pollDec } : State).ph = .pollDec ∧ ({ State.reset with ph := .idle } : State).ph = .idle ∧
    State.reset.digit.toNat ≤ 9 := by
  refine ⟨rfl, rfl, ⟨rfl, rfl⟩, ⟨rfl, rfl⟩, rfl, rfl, rfl, by decide⟩

/-- A state whose next command is a given word, and what a step of it answers: a completed command, and a fault of each
kind (`CompletedCommandAdvancesPcAndTime`, `FaultEntryWritesOnlyFaultRegisters`, `FaultsHaveTheirCauses`,
`TraceGrowsOnlyByEmission`, `RegistersChangeOnlyByTheirWriters`, `PhaseBelongsToStep`). -/
theorem witness_steps :
    stepThen (about State.reset 0xA0000064#32 .high) (fun t => t.fault = .noFault) = true ∧
    stepThen (about State.reset 0xC0000000#32 .high) (fun t => t.fault = .illegalCommand) = true ∧
    stepThen (about State.reset 0x10000053#32 .high) (fun t => t.fault = .rangeViolation) = true ∧
    stepThen (about State.reset 0x40000018#32 .high) (fun t => t.fault = .unwrittenRead) = true ∧
    stepThen (about rendered 0x50000000#32 .high) (fun t => t.trace ≠ rendered.trace) = true ∧
    (∃ t, exec .step State.reset = .next t) ∧ (∃ t, exec (.wait 1) State.reset = .next t) := by
  refine ⟨by decide, by decide, by decide, by decide, by decide, ⟨_, rfl⟩, ⟨_, rfl⟩⟩

/-- A running state whose word is illegal in each of the two ways, and the zero word (`ReservedBitsAreIllegal`,
`ReservedOpcodesAreIllegal`), and one whose word is WAIT 0. -/
theorem witness_illegal_words :
    (about State.reset 0xA0010064#32 .high).running ∧
    (∃ row ∈ opcodeMap, bits (about State.reset 0xA0010064#32 .high).commandWord 28 4 = row.opcode ∧
      (about State.reset 0xA0010064#32 .high).commandWord &&& row.mask ≠ row.matchWord) ∧
    12 ≤ bits (about State.reset 0xC0000000#32 .high).commandWord 28 4 ∧
    bits (about State.reset 0x0FFFFFFF#32 .high).commandWord 28 4 = 0 ∧
    (about State.reset 0x00000000#32 .high).commandWord = 0x00000000#32 ∧
    (about State.reset 0xA0000000#32 .high).commandWord = 0xA0000000#32 := by decide

/-- A running state whose word decodes (`StepRunsDecodedCommand`). -/
theorem witness_decoded_command :
    State.reset.running ∧ decode (Stream.read State.reset.stream State.reset.pc) = .ok .step := by decide

/-- A well-formed command with every operand at the top of its field, and a word that decodes (`DecodeOfEncode`,
`EncodeOfDecode`). -/
theorem witness_round_trips :
    (Instr.lookup 15 15).WellFormed ∧ (Instr.render 15 0xFFFFFF#24).WellFormed ∧ (Instr.fbread 31).WellFormed ∧
    (Instr.wait 65535).WellFormed ∧ decode 0x2FFFFFFF#32 = .ok (.render 15 0xFFFFFF#24) := by decide

/-- A stopped CORE (`StoppedCoreExecutesNothing`). -/
theorem witness_stopped : (State.reset.raise .rangeViolation 0x1000000A#32).fault ≠ .noFault := by decide

/-- Two renders of one digit and colour, and a third after the first (`RenderIsPureAndIdempotent`). -/
theorem witness_render_twice :
    ∃ t t' u, exec (.render 9 0x123456#24) State.reset = .next t ∧ exec (.render 9 0x123456#24) rendered = .next t' ∧
      exec (.render 9 0x123456#24) t = .next u :=
  ⟨_, _, _, rfl, rfl, rfl⟩

/-- Polls that accept and that do not, in both modes and of both buttons (`DebounceMachineOfEveryPoll`,
`PressStallsOnlyInBlockingMode`). -/
theorem witness_polls :
    (about (suppressedAt 200#32) 0x70000000#32 .low).acceptsPress .inc = true ∧
    (about (suppressedAt 199#32) 0x70000000#32 .low).polls .inc = true ∧
    (about (suppressedAt 199#32) 0x70000000#32 .low).acceptsPress .inc = false ∧
    (about { State.reset with debounceMode := .timestamped } 0x70000001#32 .low).acceptsPress .dec = true ∧
    (about { State.reset with ph := .pollDec } 0xB0000000#32 .high).polls .dec = true ∧
    stepThen (about State.reset 0x70000001#32 .low) (fun t => (t.btn .dec).state = .suppressed) = true := by decide

/-- A scripted poll of each button (`ButtonsAreIndependent`). -/
theorem witness_scripted_polls :
    (about State.reset 0x70000000#32 .low).script = [⟨.low, .low, 0⟩] ∧
    (∃ t, exec (.poll .inc) (about State.reset 0x70000000#32 .low) = .next t) ∧
    (∃ t, exec (.poll .dec) (about State.reset 0x70000001#32 .low) = .next t) :=
  ⟨rfl, ⟨_, rfl⟩, ⟨_, rfl⟩⟩

/-- Two polls in a row of a held button, in BLOCKING mode. -/
def twoPolls : State :=
  (State.reset.placeProgram 0 [0x70000000#32, 0x70000000#32]).scriptDraws [⟨.low, .low, 0⟩, ⟨.low, .low, 0⟩]

/-- Two accepted presses of one button, 200 ms apart (`PressesKeepTheWindowApart`). -/
theorem witness_two_presses :
    twoPolls.acceptsPress .inc = true ∧
    ∃ s2, step twoPolls = .next s2 ∧ Reaches s2 0 s2 ∧ s2.acceptsPress .inc = true ∧ twoPolls.timeSpent + 0 < 2 ^ 32 :=
  ⟨by decide, _, rfl, .refl, by decide, by decide⟩

/-- BLINK, WAIT 100, BLINK from time 100. -/
def twoBlinks : State :=
  ({ State.reset with now := 100#32 }.placeProgram 0 [0x60000000#32, 0xA0000064#32, 0x60000000#32]).scriptDraws
    [idealDraw, idealDraw, idealDraw]

/-- Two toggles, 100 ms apart (`TogglesKeepTheIntervalApart`). -/
theorem witness_two_toggles :
    twoBlinks.toggles = true ∧
    ∃ s2 s3, step twoBlinks = .next s2 ∧ Reaches s2 (0 + s2.timeSpent) s3 ∧ s3.toggles = true ∧
      twoBlinks.timeSpent + (0 + s2.timeSpent) < 2 ^ 32 :=
  ⟨by decide, _, _, rfl, .tail .refl rfl (by decide), by decide, by decide⟩

/-- BLINK, WAIT 0 with a draw of 2^32 + 100 ms, BLINK from time 100. -/
def twoFarBlinks : State :=
  ({ State.reset with now := 100#32 }.placeProgram 0 [0x60000000#32, 0xA0000000#32, 0x60000000#32]).scriptDraws
    [idealDraw, ⟨.high, .high, 2 ^ 32 + 100⟩, idealDraw]

/-- Two toggles with none between them, farther apart than the counter's range (`TogglesKeepTheIntervalApart`). -/
theorem witness_two_far_toggles :
    twoFarBlinks.toggles = true ∧
    ∃ s2 s3, step twoFarBlinks = .next s2 ∧ ReachesUntoggled s2 s3 ∧ s3.toggles = true ∧ 2 ^ 32 ≤ s2.timeSpent :=
  ⟨by decide, _, _, rfl, .tail .refl (by decide) rfl (by decide), by decide, by decide⟩

/-- A held button at the end of its window (`HeldButtonRepeats`). -/
theorem witness_held_button :
    (about (suppressedAt 200#32) 0x70000000#32 .low).polls .inc = true ∧
    (about (suppressedAt 200#32) 0x70000000#32 .low).line .inc = .low ∧
    Config.debounceMs ≤ (elapsed (suppressedAt 200#32).now ((suppressedAt 200#32).btn .inc).t).toNat := by decide

/-- A state other than reset that meets the invariant, at the start of an iteration, with STEP ahead. -/
def midRun : State := { rendered with digit := 3#4, now := 1000#32, pc := 6, drawIx := 6 }

/-- (`IterationTimeIsIdlePlusStallsPlusDraws`, `DigitChangeShowsInTheNextIteration`, `NormalOperationNeverFaults`,
`StepKeepsInvariant`.) -/
theorem witness_iteration :
    midRun.Inv ∧ midRun.running ∧ midRun.ph = .blink ∧ midRun.stepsAhead 9 ∧ ∃ t, step midRun = .next t :=
  ⟨⟨by decide, rfl, rfl, fun _ => rfl, fun h => absurd h (by decide), rfl⟩, rfl, rfl, fun _ _ => rfl, _, rfl⟩

/-- The same state with the next six draws scripted. -/
def midRunWith (d : EnvDraw) : State := midRun.scriptDraws (List.replicate 6 d)

theorem midRunWith_inv (d : EnvDraw) : (midRunWith d).Inv :=
  ⟨(by decide : (3#4).toNat ≤ 9), rfl, rfl, fun _ => rfl, fun _ => rfl, rfl⟩

theorem midRunWith_draws (d : EnvDraw) : (midRunWith d).drawsAhead 6 d := State.drawsAhead_replicate rfl

/-- Ready for a held button: Idle, and Suppressed at exactly the end of its window (`HeldButtonRepeats`). -/
theorem witness_held_iteration :
    (midRunWith heldIncDraw).HeldReady ∧
    ({ midRunWith heldIncDraw with btnInc := ⟨.suppressed, 800#32⟩ } : State).HeldReady ∧
    (midRunWith heldIncDraw).stepsAhead (6 * 1) ∧ (midRunWith heldIncDraw).drawsAhead (6 * 1) heldIncDraw :=
  ⟨⟨midRunWith_inv _, rfl, rfl, rfl, .inl rfl⟩,
    ⟨⟨by decide, rfl, rfl, fun _ => rfl, fun h => absurd h (by decide), rfl⟩, rfl, rfl, rfl, .inr (by decide)⟩,
    fun _ _ => rfl, midRunWith_draws _⟩

/-- An iteration under ideal timing, with the blink interval just over and not yet over, and the first from reset
(`IdealTimingTrace`, `FirstFrameIsDigitZeroInRed`). -/
theorem witness_ideal_iteration :
    ((midRunWith idealDraw).Inv ∧ (midRunWith idealDraw).running ∧ (midRunWith idealDraw).ph = .blink ∧
      (midRunWith idealDraw).stepsAhead 6 ∧ (midRunWith idealDraw).drawsAhead 6 idealDraw) ∧
    Config.blinkMs ≤ (elapsed (midRunWith idealDraw).now 900#32).toNat ∧
    (elapsed (midRunWith idealDraw).now 901#32).toNat < Config.blinkMs ∧
    (State.fromReset [] (List.replicate 6 idealDraw) 0 .timestamped).stepsAhead (6 * (0 + 1)) ∧
    (State.fromReset [] (List.replicate 6 idealDraw) 0 .timestamped).drawsAhead (6 * (0 + 1)) idealDraw ∧
    (State.fromReset [(3, 0x50000000#32)] [] 7 .blocking).stepsAhead 3 :=
  ⟨⟨midRunWith_inv _, rfl, rfl, fun _ _ => rfl, midRunWith_draws _⟩, by decide, by decide, fun _ _ => rfl,
    State.drawsAhead_replicate rfl,
    fun
    | 0, _ => rfl
    | 1, _ => rfl
    | 2, _ => rfl
    | n + 3, h => absurd h (by omega)⟩

end Sys2Proof.Tests
end

/-! ## The family of 10_state.md: what an effect leaves to the end of its command, and what reads the phase -/

namespace Sys2Proof.Machine

/-! ### What no effect writes -/

/-- The part of the state that no command's effect writes: the end of the command alone moves it (10_state.md R21, R36,
20_memory.md R55), or the environment holds it. -/
structure State.SameControl (s t : State) : Prop where
  pc : t.pc = s.pc
  now : t.now = s.now
  color : t.color = s.color
  fault : t.fault = s.fault
  faultWord : t.faultWord = s.faultWord
  stream : t.stream = s.stream
  script : t.script = s.script
  drawIx : t.drawIx = s.drawIx
  debounceMode : t.debounceMode = s.debounceMode

/-- A state with the control part of another has its draw δ too. -/
theorem State.SameControl.delta {s t : State} (h : s.SameControl t) : t.delta = s.delta :=
  congrArg EnvDraw.delta (State.draw_congr s h.script h.drawIx)

theorem State.SameControl.nextPhase {s t : State} (h : s.SameControl t) : s.SameControl t.nextPhase := { h with }

/-- The blinker's task writes only the blinker and the status output. -/
theorem blinkTask_sameControl (s : State) : s.SameControl (blinkTask s) := by
  rcases blinkTask_cases s with ⟨-, h⟩ | ⟨-, h⟩ <;> rw [h] <;> constructor <;> rfl

theorem pollTask_sameControl (b : Button) (s : State) : s.SameControl (pollTask b s) := by
  obtain ⟨r, d, -, h⟩ := pollTask_frame b s
  rw [h]
  constructor <;> simp

@[simp] theorem blinkTask_ph (s : State) : (blinkTask s).ph = s.ph := by
  rcases blinkTask_cases s with ⟨-, h⟩ | ⟨-, h⟩ <;> simp [h]

@[simp] theorem pollTask_ph (b : Button) (s : State) : (pollTask b s).ph = s.ph := by
  obtain ⟨r, d, -, h⟩ := pollTask_frame b s
  simp [h]

theorem StepDoes.sameControl {s : State} {e : Effect} (h : StepDoes s e) : s.SameControl e.after := by
  rcases h with ⟨-, rfl⟩ | ⟨-, -, rfl⟩ | ⟨-, f, -, rfl⟩ | ⟨-, rfl⟩ | ⟨-, rfl⟩ | ⟨-, rfl⟩
  · exact (blinkTask_sameControl s).nextPhase
  · constructor <;> rfl
  · constructor <;> rfl
  · exact (pollTask_sameControl .inc s).nextPhase
  · exact (pollTask_sameControl .dec s).nextPhase
  · constructor <;> rfl

/-- A command that raises no fault leaves the control part to its end. -/
theorem effectOf_sameControl {i : Instr} {s : State} {e : Effect} (h : effectOf i s = .ok e) : s.SameControl e.after := by
  rcases effectOf_ok h with ⟨v, rfl, -⟩ | ⟨f, rfl, -⟩ | ⟨f, -, rfl, -⟩ | ⟨rfl, -⟩ | ⟨b, rfl, -⟩ | ⟨d, -, rfl, -⟩ |
    ⟨n, rfl, -⟩ | ⟨-, hs⟩
  · constructor <;> rfl
  · constructor <;> rfl
  · constructor <;> rfl
  · exact blinkTask_sameControl s
  · exact { pollTask_sameControl b s with }
  · constructor <;> rfl
  · constructor <;> rfl
  · exact hs.sameControl

/-! ### What a command costs -/

theorem State.nextCommand_of_decode {s : State} {i : Instr} (hr : s.running) (hd : decode s.commandWord = .ok i) :
    s.nextCommand = some i := by
  simp [State.nextCommand, hr, hd, Except.toOption]

theorem State.polls_of_nextCommand {s : State} {i : Instr} (h : s.nextCommand = some i) (b : Button) :
    s.polls b = s.pollsWith b i := by
  simp [State.polls, h]

theorem State.timeCost_of_nextCommand {s : State} {i : Instr} (h : s.nextCommand = some i) : s.timeCost = s.costOf i := by
  simp [State.timeCost, h]

/-- When the next command polls b, it accepts a press exactly when the poll does. -/
theorem State.acceptsPress_eq_pollPress {s : State} {b : Button} (h : s.polls b = true) :
    s.acceptsPress b = s.pollPress b := by
  rw [Bool.eq_iff_iff, State.pollPress_iff]
  simp [State.acceptsPress, h]

theorem pollCost_eq_stall {s : State} {b : Button} (h : s.polls b = true) : pollCost b s = s.stall b := by
  simp only [pollCost, State.stall, State.acceptsPress_eq_pollPress h]

theorem StepDoes.cost {s : State} {e : Effect} (hc : s.nextCommand = some .step) (h : StepDoes s e) :
    e.cost = s.taskCost := by
  have hpoll (b : Button) (hp : s.ph = pollPhase b) : pollCost b s = s.stall b :=
    pollCost_eq_stall (by simp [State.polls_of_nextCommand hc, State.pollsWith, hp])
  rcases h with ⟨hp, rfl⟩ | ⟨hp, -, rfl⟩ | ⟨hp, f, -, rfl⟩ | ⟨hp, rfl⟩ | ⟨hp, rfl⟩ | ⟨hp, rfl⟩ <;>
    simp only [State.taskCost, hp]
  · exact hpoll .inc hp
  · exact hpoll .dec hp

/-- The cost of a completed command is the one that 20_memory.md R55 lists. -/
theorem effectOf_cost {i : Instr} {s : State} {e : Effect} (hc : s.nextCommand = some i) (h : effectOf i s = .ok e) :
    e.cost = s.timeCost := by
  rw [State.timeCost_of_nextCommand hc]
  rcases effectOf_ok h with ⟨v, rfl, hi⟩ | ⟨f, rfl, hi⟩ | ⟨f, -, rfl, rfl⟩ | ⟨rfl, rfl⟩ | ⟨b, rfl, rfl⟩ |
    ⟨d, -, rfl, hi⟩ | ⟨n, rfl, rfl⟩ | ⟨rfl, hs⟩
  · rcases hi with ⟨d, r, rfl⟩ | ⟨n, rfl⟩ <;> rfl
  · rcases hi with ⟨d, c, rfl⟩ | rfl <;> rfl
  · rfl
  · rfl
  · exact pollCost_eq_stall (by simp [State.polls_of_nextCommand hc, State.pollsWith])
  · rcases hi with rfl | rfl <;> rfl
  · rfl
  · exact hs.cost hc

/-! ### Completion and fault -/

/-- A step completes the next command, or raises a fault in the state it began in. -/
theorem step_completes_or_raises {s t : State} (h : step s = .next t) :
    (∃ i e, s.nextCommand = some i ∧ effectOf i s = .ok e ∧ t = e.after.complete e.cost) ∨
    (∃ k w, t = s.raise k w) := by
  obtain ⟨hr, ⟨_, -, ht⟩ | ⟨i, hd, hx⟩⟩ := step_cases h
  · exact .inr ⟨_, _, ht⟩
  · rcases exec_cases hx with ⟨e, he, ht⟩ | ⟨k, -, ht⟩
    · exact .inl ⟨i, e, State.nextCommand_of_decode hr hd, he, ht⟩
    · exact .inr ⟨k, _, ht⟩

theorem toNat_advance (t : Time) (n : Nat) : (advance t n).toNat = (t.toNat + n) % 2 ^ 32 := by
  simp [advance]

theorem State.raise_not_running (s : State) (k : FaultKind) (w : Word) : ¬ (s.raise k w).running :=
  FaultKind.register_ne k

/-- Settles O28: a step completes an effect that leaves `pc`, `now` and the draw as they were, or raises a fault. -/
theorem completedCommandAdvancesPcAndTime : Obligations.CompletedCommandAdvancesPcAndTime := by
  refine ⟨rfl, fun s t h => ?_, fun s l l' n => rfl⟩
  rcases step_completes_or_raises h with ⟨i, e, hc, he, rfl⟩ | ⟨k, w, rfl⟩
  · have hsame := effectOf_sameControl he
    have hrun : (e.after.complete e.cost).running := hsame.fault.trans (step_cases h).1
    refine ⟨fun _ => ⟨congrArg (· + 1) hsame.pc, ?_⟩, fun hn => absurd hrun hn⟩
    rw [State.complete_now, toNat_advance, hsame.now, hsame.delta, effectOf_cost hc he, Nat.add_assoc]
  · exact ⟨fun hr => absurd hr (s.raise_not_running k w), fun _ => ⟨rfl, rfl⟩⟩

/-! ### What reads the phase -/

/-- The state with another phase. -/
def State.withPhase (s : State) (p : Phase) : State := { s with ph := p }

/-- An effect with another phase left behind. -/
def Effect.withPhase (e : Effect) (p : Phase) : Effect := { e with after := e.after.withPhase p }

@[simp] theorem State.pollIdle_withPhase (s : State) (p : Phase) (b : Button) :
    (s.withPhase p).pollIdle b = s.pollIdle b := by cases b <;> rfl

@[simp] theorem State.pollPress_withPhase (s : State) (p : Phase) (b : Button) :
    (s.withPhase p).pollPress b = s.pollPress b := by cases b <;> rfl

theorem lookupEffect_withPhase (d r : Nat) (s : State) (p : Phase) :
    lookupEffect d r (s.withPhase p) = (lookupEffect d r s).map (·.withPhase p) := by
  simp only [lookupEffect]
  cases digitOperand d <;> cases rowOperand r <;> rfl

theorem renderEffect_withPhase (d : Nat) (c : Pixel) (s : State) (p : Phase) :
    renderEffect d c (s.withPhase p) = (renderEffect d c s).map (·.withPhase p) := by
  simp only [renderEffect]
  cases digitOperand d <;> rfl

theorem renderSelection_withPhase (s : State) (p : Phase) :
    renderSelection (s.withPhase p) = (renderSelection s).map (·.withPhase p) := by
  rcases renderSelection_cases s with ⟨hd, h⟩ | ⟨hd, h⟩ <;> rw [h]
  · exact renderSelection_of_le (s := s.withPhase p) hd
  · exact renderSelection_of_gt (s := s.withPhase p) hd

theorem emitBuffer_withPhase (s : State) (p : Phase) :
    emitBuffer (s.withPhase p) = (emitBuffer s).map (·.withPhase p) := by
  rcases emitBuffer_cases s with ⟨f, hf, h⟩ | ⟨hf, h⟩ <;> rw [h]
  · exact emitBuffer_of_some (s := s.withPhase p) hf
  · exact emitBuffer_of_none (s := s.withPhase p) hf

theorem fbreadEffect_withPhase (n : Nat) (s : State) (p : Phase) :
    fbreadEffect n (s.withPhase p) = (fbreadEffect n s).map (·.withPhase p) := by
  have hread (i : Fin 25) : (s.withPhase p).fbRead i = s.fbRead i := rfl
  simp only [fbreadEffect, hread]
  cases pixelOperand n with
  | error k => rfl
  | ok i =>
    simp only
    cases s.fbRead i <;> rfl

theorem blinkTask_withPhase (s : State) (p : Phase) : blinkTask (s.withPhase p) = (blinkTask s).withPhase p := by
  have hdue : (s.withPhase p).blinkDue = s.blinkDue := rfl
  simp only [blinkTask, hdue]
  cases s.blinkDue <;> rfl

theorem pollTask_withPhase (b : Button) (s : State) (p : Phase) :
    pollTask b (s.withPhase p) = (pollTask b s).withPhase p := by
  simp only [pollTask, State.pollPress_withPhase, State.pollIdle_withPhase]
  cases s.pollPress b <;> cases b <;> rfl

theorem pollEffect_withPhase (b : Button) (s : State) (p : Phase) :
    pollEffect b (s.withPhase p) = (pollEffect b s).withPhase p := by
  simp only [pollEffect, pollCost, pollTask_withPhase, State.pollPress_withPhase]
  rfl

/-- No command but STEP reads the phase: from another phase it has the same effect, and leaves that phase. -/
theorem effectOf_withPhase {i : Instr} (hi : i ≠ .step) (s : State) (p : Phase) :
    effectOf i (s.withPhase p) = (effectOf i s).map (·.withPhase p) := by
  cases i with
  | lookup d r => exact lookupEffect_withPhase d r s p
  | render d c => exact renderEffect_withPhase d c s p
  | renders => exact renderSelection_withPhase s p
  | fbread n => exact fbreadEffect_withPhase n s p
  | emit => exact emitBuffer_withPhase s p
  | blink => exact congrArg (fun u => Except.ok (Effect.mk u 0)) (blinkTask_withPhase s p)
  | poll b => exact congrArg Except.ok (pollEffect_withPhase b s p)
  | selinc => rfl
  | seldec => rfl
  | wait n => rfl
  | step => exact absurd rfl hi

theorem exec_withPhase {i : Instr} {s t : State} (hi : i ≠ .step) (h : exec i s = .next t) (p : Phase) :
    exec i (s.withPhase p) = .next (t.withPhase p) := by
  rw [exec_eq_conclude, effectOf_withPhase hi]
  rcases exec_cases h with ⟨e, he, rfl⟩ | ⟨k, hk, rfl⟩
  · rw [he]; rfl
  · rw [hk]; rfl

/-- A command that does not read the phase cannot move it: run from its own phase, it leaves that phase. -/
theorem exec_ph {i : Instr} {s t : State} (hi : i ≠ .step) (h : exec i s = .next t) : t.ph = s.ph := by
  have ht : t = t.withPhase s.ph := Host.Outcome.next.inj (h.symm.trans (exec_withPhase hi h s.ph))
  exact (congrArg State.ph ht).trans rfl

/-- STEP without a fault moves to the next phase, whatever its task. -/
theorem StepDoes.ph {s : State} {e : Effect} (h : StepDoes s e) : e.after.ph = s.ph.next := by
  rcases h with ⟨-, rfl⟩ | ⟨-, -, rfl⟩ | ⟨-, f, -, rfl⟩ | ⟨-, rfl⟩ | ⟨-, rfl⟩ | ⟨-, rfl⟩ <;> simp

theorem Phase.code_next (p : Phase) : p.code.toNat ≤ 5 ∧ p.next.code.toNat = (p.code.toNat + 1) % 6 := by
  cases p <;> decide

/-- Settles O34: STEP's effect ends in the next phase, and the effect of every other command commutes with a change of the
phase. -/
theorem phaseBelongsToStep : Obligations.PhaseBelongsToStep := by
  refine ⟨rfl, Phase.code_next, fun s t h => ?_, fun i s t p hi h => ⟨exec_ph hi h, exec_withPhase hi h p⟩⟩
  rcases exec_cases h with ⟨e, he, rfl⟩ | ⟨k, -, rfl⟩
  · exact .inl ⟨(stepEffect_ok he).ph, (effectOf_sameControl he).fault⟩
  · exact .inr ⟨k, rfl⟩

/-! ### What is unwritten -/

/-- The numbers 0x20 to 0x38 of the register view are the pixels (10_state.md R38). -/
theorem State.view_pixel (s : State) {i : Nat} (hi : i ≤ 24) : s.view (0x20 + i) = s.viewPixel i := by
  unfold State.view
  split
  any_goals omega
  rw [if_pos (by omega), Nat.add_sub_cancel_left]

theorem State.viewPixel_of_none {s : State} (h : s.fb = none) (i : Nat) : s.viewPixel i = none := by
  simp [State.viewPixel, h]

theorem State.view_res_of_none {s : State} (h : s.res = none) : s.view 0x0E = none := by
  simp [State.view, h]

/-- A command whose effect is a fault raises it with the word that spells the command. -/
theorem exec_of_error {i : Instr} {s : State} {k : FaultKind} (h : effectOf i s = .error k) :
    exec i s = .next (s.raise k (encode i)) := by
  rw [exec_eq_conclude, h, conclude_error]

theorem fbreadEffect_of_none {i : Nat} {s : State} (hi : i < 25) (h : s.fb = none) :
    fbreadEffect i s = .error .unwrittenRead := by
  simp [fbreadEffect, pixelOperand_of_lt hi, State.fbRead_of_none h]

theorem stepEffect_of_none {s : State} (hp : s.ph = .emit) (h : s.fb = none) :
    stepEffect s = .error .unwrittenRead := by
  simp [stepEffect, phaseTask, hp, emitBuffer_of_none h]

/-- Settles O32: each reader of an unwritten FrameBuffer takes its fault, and the view has no value to give. -/
theorem unwrittenStateHoldsNoValue : Obligations.UnwrittenStateHoldsNoValue := by
  refine fun s => ⟨fun h => ⟨fun i hi => ?_, ?_, fun hp => ?_, fun i hi => ?_⟩, State.view_res_of_none⟩
  · exact exec_of_error (i := .fbread i) (fbreadEffect_of_none (by omega) h)
  · exact exec_of_error (i := .emit) (emitBuffer_of_none h)
  · exact exec_of_error (i := .step) (stepEffect_of_none hp h)
  · rw [s.view_pixel hi, State.viewPixel_of_none h]

end Sys2Proof.Machine

/-! ## The family of 20_memory.md: the time that `elapsed` reads back -/

namespace Sys2Proof.Machine

theorem elapsed_self (a : Time) : elapsed a a = 0#32 := BitVec.sub_self a

/-- Subtraction undoes `advance` in the ring of 32-bit words, so the wrap of the counter needs no case of its own. -/
theorem elapsed_advance (b : Time) (n : Nat) : elapsed (advance b n) b = BitVec.ofNat 32 n :=
  add_sub_cancel_left b (BitVec.ofNat 32 n)

theorem toNat_elapsed_advance (b : Time) (n : Nat) : (elapsed (advance b n) b).toNat = n % 2 ^ 32 := by
  rw [elapsed_advance, BitVec.toNat_ofNat]

/-- Settles O35: the gap read back is n modulo 2^32, which is n itself below the counter's width. -/
theorem elapsedMeasuresAcrossWrap : Obligations.ElapsedMeasuresAcrossWrap := by
  refine ⟨fun a => ?_, fun b n hn => ?_, toNat_elapsed_advance⟩
  · rw [elapsed_self, BitVec.toNat_ofNat, Nat.zero_mod]
  · rw [toNat_elapsed_advance, Nat.mod_eq_of_lt hn]

end Sys2Proof.Machine

/-! ## The family of 30_encoding.md: the decoder against the opcode map, and the words that spell no command -/

namespace Sys2Proof

/-! ### The decoder, row by row of the opcode map -/

/-- How many low bits of a word with this opcode are operand bits; from there up to bit 27 its bits are reserved
(30_encoding.md R72). -/
def operandWidth : Nat → Nat
  | 0x1 => 8
  | 0x2 => 28
  | 0x4 => 5
  | 0x7 => 1
  | 0xA => 16
  | _ => 0

theorem operandWidth_le (op : Nat) : operandWidth op ≤ 28 := by
  unfold operandWidth
  split <;> decide

/-- The reserved bits of a word, by its opcode. -/
def reservedField (w : Word) : Nat :=
  bits w (operandWidth (bits w 28 4)) (28 - operandWidth (bits w 28 4))

/-- A row's opcode is 1 to 11, its match is the opcode alone, and its mask leaves out the operand bits. -/
theorem opcodeMap_shape : ∀ row ∈ opcodeMap, 1 ≤ row.opcode ∧ row.opcode < 12 ∧
    row.matchWord = BitVec.ofNat 32 (row.opcode * 2 ^ 28) ∧
    row.mask = BitVec.ofNat 32 (2 ^ 32 - 2 ^ operandWidth row.opcode) := by
  decide

/-- Every opcode of 1 to 11 has its row. -/
theorem exists_row_of_opcode : ∀ op, op < 12 → 1 ≤ op → ∃ row ∈ opcodeMap, op = row.opcode := by
  decide

/-- A word whose bits from `lo` on are an opcode with zeros below it has that opcode and zeros from `lo` to 27. -/
theorem div_eq_opcode_iff (w : Word) (op lo : Nat) (hlo : lo ≤ 28) :
    w.toNat / 2 ^ lo = op * 2 ^ (28 - lo) ↔ bits w 28 4 = op ∧ bits w lo (28 - lo) = 0 := by
  have hpos : 0 < 2 ^ (28 - lo) := Nat.two_pow_pos _
  have hop : bits w 28 4 = w.toNat / 2 ^ lo / 2 ^ (28 - lo) := by
    have hw := w.isLt
    rw [Nat.div_div_eq_div_mul, ← Nat.pow_add, Nat.add_sub_cancel' hlo]
    exact Nat.mod_eq_of_lt (by omega)
  have hres : bits w lo (28 - lo) = w.toNat / 2 ^ lo % 2 ^ (28 - lo) := rfl
  rw [hop, hres]
  constructor
  · intro h
    rw [h]
    exact ⟨Nat.mul_div_cancel _ hpos, Nat.mul_mod_left _ _⟩
  · rintro ⟨hq, hr⟩
    rw [← hq, Nat.div_mul_cancel (Nat.dvd_of_mod_eq_zero hr)]

/-- A word agrees with a row exactly when it has the row's opcode and zeros in its reserved bits. -/
theorem row_matches_iff {row : OpcodeRow} (hrow : row ∈ opcodeMap) (w : Word) :
    w &&& row.mask = row.matchWord ↔ bits w 28 4 = row.opcode ∧ reservedField w = 0 := by
  obtain ⟨-, hlt, hmatch, hmask⟩ := opcodeMap_shape row hrow
  have hlo := operandWidth_le row.opcode
  have hsplit : row.opcode * 2 ^ 28 = row.opcode * 2 ^ (28 - operandWidth row.opcode) * 2 ^ operandWidth row.opcode := by
    rw [Nat.mul_assoc, ← Nat.pow_add, Nat.sub_add_cancel hlo]
  rw [hmatch, hmask, hsplit, masked_eq_iff w _ (by omega) _ (by rw [← hsplit]; omega), div_eq_opcode_iff w _ _ hlo]
  exact and_congr_right fun hop => by rw [reservedField, hop]

/-- A word with an opcode of 1 to 11 decodes to a command of that opcode once its reserved bits are zero. -/
theorem decode_of_defined_opcode {w : Word} (hpos : 1 ≤ bits w 28 4) (hlt : bits w 28 4 < 12) :
    ∃ i : Instr, i.opcode = bits w 28 4 ∧ decode w = ifZero (reservedField w) i := by
  obtain ⟨h1, h2, h3, h4, h5, h6, h7, h8, h9, hA, hB, -⟩ := decode_of_opcode w
  unfold reservedField
  generalize bits w 28 4 = op at *
  interval_cases op
  · exact ⟨_, rfl, h1 rfl⟩
  · exact ⟨.render (bits w 24 4) (colorField w), rfl, by simp [h2 rfl, operandWidth, bits, Nat.mod_one]⟩
  · exact ⟨_, rfl, h3 rfl⟩
  · exact ⟨_, rfl, h4 rfl⟩
  · exact ⟨_, rfl, h5 rfl⟩
  · exact ⟨_, rfl, h6 rfl⟩
  · exact ⟨_, rfl, h7 rfl⟩
  · exact ⟨_, rfl, h8 rfl⟩
  · exact ⟨_, rfl, h9 rfl⟩
  · exact ⟨_, rfl, hA rfl⟩
  · exact ⟨_, rfl, hB rfl⟩

theorem decode_of_reserved_opcode {w : Word} (h : bits w 28 4 = 0 ∨ 12 ≤ bits w 28 4) :
    decode w = .error .reservedOpcode := by
  obtain ⟨-, -, -, -, -, -, -, -, -, -, -, hres⟩ := decode_of_opcode w
  exact hres h

/-- What the decoder can answer: the opcode is reserved, or it is a row's and the reserved bits decide. -/
theorem decode_cases (w : Word) :
    ((bits w 28 4 = 0 ∨ 12 ≤ bits w 28 4) ∧ decode w = .error .reservedOpcode) ∨
    (1 ≤ bits w 28 4 ∧ bits w 28 4 < 12 ∧
      ((reservedField w = 0 ∧ ∃ i, i.opcode = bits w 28 4 ∧ decode w = .ok i) ∨
        (reservedField w ≠ 0 ∧ decode w = .error .reservedBits))) := by
  by_cases h : bits w 28 4 = 0 ∨ 12 ≤ bits w 28 4
  · exact .inl ⟨h, decode_of_reserved_opcode h⟩
  · have hpos : 1 ≤ bits w 28 4 := by omega
    have hlt : bits w 28 4 < 12 := by omega
    obtain ⟨i, hi, hd⟩ := decode_of_defined_opcode hpos hlt
    refine .inr ⟨hpos, hlt, ?_⟩
    by_cases hz : reservedField w = 0
    · exact .inl ⟨hz, i, hi, by rw [hd, hz, ifZero_zero]⟩
    · exact .inr ⟨hz, by rw [hd, ifZero_of_ne hz]⟩

/-- A word spells a command of opcode `op` exactly when it has that opcode, a defined one, and zeros in its reserved bits. -/
theorem decode_eq_ok_opcode_iff {w : Word} {op : Nat} (hpos : 1 ≤ op) (hlt : op < 12) :
    (∃ i, decode w = .ok i ∧ i.opcode = op) ↔ bits w 28 4 = op ∧ reservedField w = 0 := by
  rcases decode_cases w with ⟨hop, hd⟩ | ⟨-, -, ⟨hz, i, hi, hd⟩ | ⟨hz, hd⟩⟩
  · simp only [hd, reduceCtorEq, false_and, exists_false, false_iff]
    omega
  · simp [hd, hi, hz]
  · simp [hd, hz]

theorem decode_eq_reservedOpcode_iff (w : Word) :
    decode w = .error .reservedOpcode ↔ bits w 28 4 = 0 ∨ 12 ≤ bits w 28 4 := by
  refine ⟨fun h => ?_, decode_of_reserved_opcode⟩
  rcases decode_cases w with ⟨hop, -⟩ | ⟨-, -, ⟨-, i, -, hd⟩ | ⟨-, hd⟩⟩
  · exact hop
  all_goals simp [hd] at h

/-- A word is refused for its reserved bits exactly when it has a row's opcode and disagrees with the row's match. -/
theorem decode_eq_reservedBits_iff (w : Word) :
    decode w = .error .reservedBits ↔
      ∃ row ∈ opcodeMap, bits w 28 4 = row.opcode ∧ w &&& row.mask ≠ row.matchWord := by
  constructor
  · intro h
    rcases decode_cases w with ⟨-, hd⟩ | ⟨hpos, hlt, ⟨-, i, -, hd⟩ | ⟨hz, -⟩⟩
    · simp [hd] at h
    · simp [hd] at h
    · obtain ⟨row, hrow, hop⟩ := exists_row_of_opcode _ hlt hpos
      exact ⟨row, hrow, hop, fun hm => hz ((row_matches_iff hrow w).mp hm).2⟩
  · rintro ⟨row, hrow, hop, hne⟩
    obtain ⟨hpos, hlt, -, -⟩ := opcodeMap_shape row hrow
    have hz : reservedField w ≠ 0 := fun hz => hne ((row_matches_iff hrow w).mpr ⟨hop, hz⟩)
    obtain ⟨i, -, hd⟩ := decode_of_defined_opcode (hop ▸ hpos) (hop ▸ hlt)
    rw [hd, ifZero_of_ne hz]

/-- Settles O22: agreeing with a row is having its opcode and zeros in the reserved bits, which is what the decoder asks. -/
theorem decodeFollowsOpcodeMap : Obligations.DecodeFollowsOpcodeMap := by
  refine fun w => ⟨fun row hrow => ?_, decode_eq_reservedOpcode_iff w, decode_eq_reservedBits_iff w⟩
  obtain ⟨hpos, hlt, -, -⟩ := opcodeMap_shape row hrow
  rw [row_matches_iff hrow, decode_eq_ok_opcode_iff hpos hlt]

/-- Only one word spells a WAIT of a given time. -/
theorem toNat_of_decode_wait {w : Word} {n : Nat} (h : decode w = .ok (.wait n)) :
    n < 2 ^ 16 ∧ w.toNat = 0xA0000000 + n := by
  have hw := w.isLt
  obtain ⟨hop, -⟩ := (decode_eq_ok_opcode_iff (op := 0xA) (by decide) (by decide)).mp ⟨_, h, rfl⟩
  obtain ⟨-, -, -, -, -, -, -, -, -, hA, -, -⟩ := decode_of_opcode w
  obtain ⟨hz, hwait⟩ := ifZero_eq_ok.mp ((hA hop).symm.trans h)
  have hn := Instr.wait.inj hwait
  simp only [bits] at hop hz hn
  omega

end Sys2Proof

namespace Sys2Proof.Machine

/-! ### The words that spell no command -/

/-- A running CORE takes ILLEGAL_COMMAND on a word that spells no command. -/
theorem step_illegal {s : State} {e : DecodeReject} (hr : s.running) (hd : decode s.commandWord = .error e) :
    step s = .next (s.raise .illegalCommand s.commandWord) := by
  rw [step, State.fetch_illegal hr hd]

/-- Settles O23: such a word is refused for its reserved bits. -/
theorem reservedBitsAreIllegal : Obligations.ReservedBitsAreIllegal :=
  fun s hr h => step_illegal hr ((decode_eq_reservedBits_iff s.commandWord).mpr h)

/-! ### The only no-op -/

/-- What a no-op leaves: `pc` advanced and the time δ passed. -/
theorem State.complete_zero (s : State) : s.complete 0 =
    { s with
      pc := s.pc + 1, now := s.now + BitVec.ofNat 32 s.delta
      script := s.script.tail, drawIx := s.drawIx + 1 } := by
  simp only [State.complete, advance, Nat.zero_add]

/-- WAIT 0 is a no-op. -/
theorem step_wait_zero {s : State} (hr : s.running) (hw : s.commandWord = 0xA0000000#32) :
    step s = .next (s.complete 0) := by
  have hd : decode s.commandWord = .ok (.wait 0) := by rw [hw]; decide
  rw [step, State.fetch_command hr hd]
  rfl

/-- The reset state 100 ms later, about to execute `w`: here every command but WAIT shows, since the blinker is due, neither
`fb` nor `res` is written, and the digit and the phase are 0. -/
def noopProbe (w : Word) : State := { State.reset with now := 100#32, stream := [(0, w)] }

theorem noopProbe_running (w : Word) : (noopProbe w).running := rfl

theorem noopProbe_commandWord (w : Word) : (noopProbe w).commandWord = w := rfl

/-- The probe's blinker toggles from off to on. -/
theorem noopProbe_blinkTask_blinkOn (w : Word) : (blinkTask (noopProbe w)).blinkOn = true := by
  have hdue : (noopProbe w).blinkDue = true := by
    rw [State.blinkDue_iff]
    change Config.blinkMs ≤ (elapsed 100#32 0#32).toNat
    decide
  rcases blinkTask_cases (noopProbe w) with ⟨-, h⟩ | ⟨hnot, -⟩
  · rw [h]
    rfl
  · simp [hdue] at hnot

/-- A command that acts as a no-op on the probe is a WAIT. -/
theorem wait_of_noop {w : Word} {i : Instr} {e : Effect} (he : effectOf i (noopProbe w) = .ok e)
    (h : e.after.complete e.cost = (noopProbe w).complete 0) : ∃ n, i = .wait n ∧ e = ⟨noopProbe w, n⟩ := by
  rcases effectOf_ok he with ⟨v, rfl, -⟩ | ⟨f, rfl, -⟩ | ⟨f, hf, -, -⟩ | ⟨rfl, -⟩ | ⟨b, rfl, -⟩ | ⟨d, -, -, hi⟩ |
    ⟨n, rfl, rfl⟩ | ⟨-, hs⟩
  · exact absurd (congrArg State.res h) (Option.some_ne_none v)
  · exact absurd (congrArg State.fb h) (Option.some_ne_none f)
  · exact absurd hf.symm (Option.some_ne_none f)
  · have hon : (blinkTask (noopProbe w)).blinkOn = false := congrArg State.blinkOn h
    simp [noopProbe_blinkTask_blinkOn] at hon
  · exact absurd (congrArg State.res h) (Option.some_ne_none _)
  · rcases hi with rfl | rfl <;> cases he
    · have hdigit : incDigit 0#4 = 0#4 := congrArg State.digit h
      exact absurd hdigit (by decide)
    · have hdigit : decDigit 0#4 = 0#4 := congrArg State.digit h
      exact absurd hdigit (by decide)
  · exact ⟨n, rfl, rfl⟩
  · have hph : Phase.next .blink = .blink := hs.ph.symm.trans (congrArg State.ph h)
    exact absurd hph (by decide)

/-- A WAIT of less than the counter's range that passes no more than δ is WAIT 0. -/
theorem wait_zero_of_complete {s : State} {n : Nat} (hn : n < 2 ^ 16) (h : s.complete n = s.complete 0) : n = 0 := by
  have hnow := congrArg (fun t => (State.now t).toNat) h
  simp only [State.complete_now, toNat_advance] at hnow
  omega

/-- A word whose step on the probe is a no-op is WAIT 0. -/
theorem eq_wait_zero_of_noop {w : Word} (h : step (noopProbe w) = .next ((noopProbe w).complete 0)) :
    w = 0xA0000000#32 := by
  have hrun : ((noopProbe w).complete 0).running := noopProbe_running w
  obtain ⟨-, ⟨_, -, ht⟩ | ⟨i, hd, hx⟩⟩ := step_cases h
  · exact absurd (ht ▸ hrun) (State.raise_not_running _ _ _)
  · rcases exec_cases hx with ⟨e, he, ht⟩ | ⟨k, -, ht⟩
    · obtain ⟨n, rfl, rfl⟩ := wait_of_noop he ht.symm
      obtain ⟨hn, hw⟩ := toNat_of_decode_wait hd
      obtain rfl := wait_zero_of_complete hn ht.symm
      exact BitVec.eq_of_toNat_eq hw
    · exact absurd (ht ▸ hrun) (State.raise_not_running _ _ _)

/-- Settles O24: a reserved opcode is refused by the decoder, the zero word has one, and a no-op in every running state is one
on the probe. -/
theorem reservedOpcodesAreIllegal : Obligations.ReservedOpcodesAreIllegal := by
  refine ⟨fun s hr hop => step_illegal hr (decode_of_reserved_opcode hop), fun s hr hw => ?_, fun w => ⟨fun h => ?_, ?_⟩⟩
  · rw [← hw]
    exact step_illegal hr (decode_of_reserved_opcode (.inl (by rw [hw]; decide)))
  · apply eq_wait_zero_of_noop
    rw [State.complete_zero]
    exact h _ (noopProbe_running w) (noopProbe_commandWord w)
  · rintro rfl s hr hw
    rw [step_wait_zero hr hw, State.complete_zero]

end Sys2Proof.Machine

/-! ## The family of 40_pattern_rom.md: the words of an opcode, and LOOKUP -/

namespace Sys2Proof.Machine

/-- The decoder's half of an instruction's rule, from its row of the opcode map: it is left to say which command the decoder
reads from a word of that opcode with zeros in its reserved bits. -/
theorem spells_of_row {row : OpcodeRow} (hrow : row ∈ opcodeMap) {f : Word → Instr}
    (hf : ∀ w, bits w 28 4 = row.opcode → reservedField w = 0 → decode w = .ok (f w)) :
    Spells row.opcode row.matchWord row.mask f := by
  refine fun w => ⟨fun hm => ?_, fun hop hne => (decode_eq_reservedBits_iff w).mpr ⟨row, hrow, hop, hne⟩⟩
  obtain ⟨hop, hz⟩ := (row_matches_iff hrow w).mp hm
  exact hf w hop hz

/-- A command whose effect is no fault completes it. -/
theorem exec_of_ok {i : Instr} {s : State} {e : Effect} (h : effectOf i s = .ok e) :
    exec i s = .next (e.after.complete e.cost) := by
  rw [exec_eq_conclude, h, conclude_ok]

/-- The ROM address of a digit and a row reads that digit's mask of that row (20_memory.md R50). -/
@[simp] theorem romRead_romAddress (d : Fin 10) (r : Fin 5) : romRead (romAddress d r) = Config.patternRom d r := by
  have hd : (d.val * 5 + r.val) / 5 = d.val := by omega
  have hr : (d.val * 5 + r.val) % 5 = r.val := by omega
  simp only [romRead, romAddress, hd, hr]

theorem decode_lookup {w : Word} (hop : bits w 28 4 = 0x1) (hz : reservedField w = 0) :
    decode w = .ok (.lookup (bits w 0 4) (bits w 4 4)) := by
  obtain ⟨h1, -⟩ := decode_of_opcode w
  have hres : bits w 8 20 = 0 := by simpa only [reservedField, hop, operandWidth] using hz
  rw [h1 hop, hres, ifZero_zero]

theorem lookupEffect_of_lt {d r : Nat} (hd : d < 10) (hr : r < 5) (s : State) :
    lookupEffect d r s = .ok ⟨s.writeRes ((Config.patternRom ⟨d, hd⟩ ⟨r, hr⟩).setWidth 24), 0⟩ := by
  simp only [lookupEffect, digitOperand_of_lt hd, rowOperand_of_lt hr, romRead_romAddress]

theorem lookupEffect_of_outOfRange {d r : Nat} (h : 9 < d ∨ 4 < r) (s : State) :
    lookupEffect d r s = .error .rangeViolation := by
  obtain ⟨hd, hr, -⟩ | ⟨-, he⟩ := lookupEffect_cases d r s
  · omega
  · exact he

/-- Settles O1: the words by LOOKUP's row of the opcode map, and the two results by whether both operands are in range. -/
theorem lookupReadsRomRow : Obligations.LookupReadsRomRow := by
  refine ⟨?_, fun d r s => ⟨fun hd hr => ?_, fun h => ?_⟩⟩
  · refine spells_of_row (row := ⟨"LOOKUP", 0x1, 0x10000000#32, 0xFFFFFF00#32⟩) (by decide) fun w hop hz => ?_
    simpa only [bits, Nat.reducePow, Nat.div_one] using decode_lookup hop hz
  · rw [exec_of_ok (i := .lookup d r) (lookupEffect_of_lt (by omega) (by omega) s), State.complete_zero]
    rfl
  · exact exec_of_error (i := .lookup d r) (lookupEffect_of_outOfRange h s)

end Sys2Proof.Machine

/-! ## The family of 41_render.md: pixel coordinates, the rasterizer, its commands, and the strip output trace -/

namespace Sys2Proof.Machine

/-! ### Pixel coordinates (R116) -/

@[simp] theorem pixelRow_pixelIndex (row col : Fin 5) : pixelRow (pixelIndex row col) = row :=
  Fin.ext (by simp only [pixelRow, pixelIndex]; omega)

@[simp] theorem pixelColumn_pixelIndex (row col : Fin 5) : pixelColumn (pixelIndex row col) = col :=
  Fin.ext (by simp only [pixelColumn, pixelIndex]; omega)

@[simp] theorem pixelIndex_row_column (i : Fin 25) : pixelIndex (pixelRow i) (pixelColumn i) = i :=
  Fin.ext (Nat.div_add_mod' i.val 5)

/-- Settles O17: the two conversions undo each other, since a column is below 5. -/
theorem pixelIndexConverts : Obligations.PixelIndexConverts :=
  ⟨fun i => ⟨rfl, rfl, pixelIndex_row_column i⟩,
    fun row col => ⟨rfl, pixelRow_pixelIndex row col, pixelColumn_pixelIndex row col⟩, rfl, rfl⟩

/-- A cell has one pair of coordinates. -/
theorem pixelIndex_eq_iff {row col : Fin 5} {i : Fin 25} :
    pixelIndex row col = i ↔ row = pixelRow i ∧ col = pixelColumn i := by
  constructor
  · rintro rfl
    simp
  · rintro ⟨rfl, rfl⟩
    exact pixelIndex_row_column i

/-! ### The rasterizer (R110, R111) -/

/-- Every row, and every column, is among the lanes. -/
theorem mem_lanes : ∀ k : Fin 5, k ∈ lanes := by decide

/-- A pixel of the closed form, by its coordinates. -/
theorem render_getElem (d : Fin 10) (c : Pixel) (i : Fin 25) :
    (render d c)[i] =
      if (Config.patternRom d (pixelRow i)).getLsbD (4 - (pixelColumn i).val) then c else offPixel := by
  simp only [render, lit, romRead_romAddress, Fin.getElem_fin, Vector.getElem_ofFn]

/-- One turn of the inner loop, seen from pixel i: the cell is written when its mask bit `b` is 1. -/
theorem ite_set_getElem (f : Frame) (b : Bool) (row col : Fin 5) (c : Pixel) (i : Fin 25) :
    (if b then f.set (pixelIndex row col) c else f)[i] =
      if b ∧ row = pixelRow i ∧ col = pixelColumn i then c else f[i] := by
  cases b
  · simp
  · simp [Vector.getElem_set, ← Fin.ext_iff, pixelIndex_eq_iff]

/-- The writes of one row's loop over some columns, seen from pixel i. -/
theorem foldl_set_getElem (p : Fin 5 → Bool) (row : Fin 5) (c : Pixel) (i : Fin 25) (cols : List (Fin 5)) (f : Frame) :
    (cols.foldl (fun g col => if p col then g.set (pixelIndex row col) c else g) f)[i] =
      if row = pixelRow i ∧ pixelColumn i ∈ cols ∧ p (pixelColumn i) then c else f[i] := by
  induction cols generalizing f with
  | nil => simp
  | cons col cols ih =>
    rw [List.foldl_cons, ih, ite_set_getElem, ← ite_or]
    refine if_congr ?_ rfl rfl
    grind

/-- One row of the loop writes the lit pixels of that row and no other. -/
theorem rasterRow_getElem (d : Fin 10) (c : Pixel) (f : Frame) (row : Fin 5) (i : Fin 25) :
    (rasterRow d c f row)[i] = if row = pixelRow i ∧ lit d (pixelRow i) (pixelColumn i) then c else f[i] := by
  rw [rasterRow, foldl_set_getElem]
  refine if_congr (and_congr_right ?_) rfl rfl
  rintro rfl
  exact and_iff_right (mem_lanes _)

/-- The rows that the loop has passed show their lit pixels, and the others are as before. -/
theorem foldl_rasterRow_getElem (d : Fin 10) (c : Pixel) (i : Fin 25) (rows : List (Fin 5)) (f : Frame) :
    (rows.foldl (rasterRow d c) f)[i] =
      if pixelRow i ∈ rows ∧ lit d (pixelRow i) (pixelColumn i) then c else f[i] := by
  induction rows generalizing f with
  | nil => simp
  | cons row rows ih =>
    rw [List.foldl_cons, ih, rasterRow_getElem, ← ite_or]
    refine if_congr ?_ rfl rfl
    rw [← or_and_right, List.mem_cons, eq_comm, or_comm]

/-- The loop over all rows and columns computes the closed form. -/
theorem raster_eq_render (d : Fin 10) (c : Pixel) : raster d c = render d c := by
  refine Vector.ext fun n hn => ?_
  have hloop := foldl_rasterRow_getElem d c ⟨n, hn⟩ lanes (Vector.replicate 25 offPixel)
  simpa [raster, render, mem_lanes] using hloop

/-- Settles O14: the closed form pixel by pixel, and the loop by what each row has written. -/
theorem rasterLoopMatchesClosedForm : Obligations.RasterLoopMatchesClosedForm :=
  fun d c => ⟨render_getElem d c, raster_eq_render d c⟩

/-! ### The words of the four commands -/

/-- The reserved bits of a word of a known opcode. -/
theorem bits_of_reservedField {w : Word} {op : Nat} (hop : bits w 28 4 = op) (hz : reservedField w = 0) :
    bits w (operandWidth op) (28 - operandWidth op) = 0 := by
  rwa [reservedField, hop] at hz

theorem decode_render {w : Word} (hop : bits w 28 4 = 0x2) :
    decode w = .ok (.render (bits w 24 4) (colorField w)) := by
  obtain ⟨-, h2, -⟩ := decode_of_opcode w
  exact h2 hop

theorem decode_renders {w : Word} (hop : bits w 28 4 = 0x3) (hz : reservedField w = 0) : decode w = .ok .renders := by
  obtain ⟨-, -, h3, -⟩ := decode_of_opcode w
  have hres : bits w 0 28 = 0 := bits_of_reservedField hop hz
  rw [h3 hop, hres, ifZero_zero]

theorem decode_fbread {w : Word} (hop : bits w 28 4 = 0x4) (hz : reservedField w = 0) :
    decode w = .ok (.fbread (bits w 0 5)) := by
  obtain ⟨-, -, -, h4, -⟩ := decode_of_opcode w
  have hres : bits w 5 23 = 0 := bits_of_reservedField hop hz
  rw [h4 hop, hres, ifZero_zero]

theorem decode_emit {w : Word} (hop : bits w 28 4 = 0x5) (hz : reservedField w = 0) : decode w = .ok .emit := by
  obtain ⟨-, -, -, -, h5, -⟩ := decode_of_opcode w
  have hres : bits w 0 28 = 0 := bits_of_reservedField hop hz
  rw [h5 hop, hres, ifZero_zero]

/-- The colour field is the word's low 24 bits. -/
theorem colorField_eq_ofNat (w : Word) : colorField w = BitVec.ofNat 24 (w.toNat % 2 ^ 24) :=
  BitVec.eq_of_toNat_eq (by rw [colorField, BitVec.toNat_setWidth, BitVec.toNat_ofNat, Nat.mod_mod])

/-! ### The effects, operand by operand -/

theorem renderEffect_of_lt {d : Nat} (hd : d < 10) (c : Pixel) (s : State) :
    renderEffect d c s = .ok ⟨s.writeFb (render ⟨d, hd⟩ c), 0⟩ := by
  simp only [renderEffect, digitOperand_of_lt hd, raster_eq_render]

theorem renderEffect_of_gt {d : Nat} (hd : 9 < d) (c : Pixel) (s : State) :
    renderEffect d c s = .error .rangeViolation := by
  simp only [renderEffect, digitOperand_of_ge hd]

theorem fbreadEffect_of_some {i : Nat} (hi : i < 25) {s : State} {f : Frame} (hf : s.fb = some f) :
    fbreadEffect i s = .ok ⟨s.writeRes f[i], 0⟩ := by
  simp [fbreadEffect, pixelOperand_of_lt hi, State.fbRead_of_some hf]

theorem fbreadEffect_of_gt {i : Nat} (hi : 24 < i) (s : State) : fbreadEffect i s = .error .rangeViolation := by
  simp only [fbreadEffect, pixelOperand_of_ge hi]

/-! ### The commands -/

/-- RENDER of a digit of 0 to 9 completes with `Render(d, c)` in the FrameBuffer. -/
theorem exec_render_of_lt {d : Nat} (hd : d < 10) (c : Pixel) (s : State) :
    exec (.render d c) s = .next ((s.writeFb (render ⟨d, hd⟩ c)).complete 0) :=
  exec_of_ok (i := .render d c) (renderEffect_of_lt hd c s)

/-- Settles O2: the frame written is the closed form, read at the index of a row and a column. -/
theorem renderFillsFrameBuffer : Obligations.RenderFillsFrameBuffer := by
  refine ⟨?_, fun w hop => ⟨_, decode_render hop⟩, fun d c s => ⟨fun hd => ?_, fun hd => ?_⟩⟩
  · refine spells_of_row (row := ⟨"RENDER", 0x2, 0x20000000#32, 0xF0000000#32⟩) (by decide) fun w hop _ => ?_
    rw [decode_render hop, colorField_eq_ofNat]
    rfl
  · have hlt : d < 10 := by omega
    refine ⟨render ⟨d, hlt⟩ c, ?_, fun row col => ?_⟩
    · rw [exec_render_of_lt hlt, State.complete_zero]
      rfl
    · have hpixel := render_getElem ⟨d, hlt⟩ c (pixelIndex row col)
      rwa [pixelRow_pixelIndex, pixelColumn_pixelIndex] at hpixel
  · exact exec_of_error (i := .render d c) (renderEffect_of_gt hd c s)

/-- Settles O3: the word is the opcode alone, and a digit register of 0 to 9 is a digit of the ROM. -/
theorem rendersFillsFromSelection : Obligations.RendersFillsFromSelection := by
  refine ⟨?_, fun s hd => ?_⟩
  · exact spells_of_row (row := ⟨"RENDERS", 0x3, 0x30000000#32, 0xFFFFFFFF#32⟩) (by decide)
      fun w hop hz => decode_renders hop hz
  · rw [exec_of_ok (i := .renders) (renderSelection_of_le (by omega)), State.complete_zero]
    rfl

/-- Settles O4: the index is checked first, so its fault does not ask whether the FrameBuffer is written. -/
theorem fbreadReadsPixel : Obligations.FbreadReadsPixel := by
  refine ⟨?_, fun i s => ⟨fun hi f hf => ?_, fun hi => ?_, fun hi hf => ?_⟩⟩
  · refine spells_of_row (row := ⟨"FBREAD", 0x4, 0x40000000#32, 0xFFFFFFE0#32⟩) (by decide) fun w hop hz => ?_
    simpa only [bits, Nat.reducePow, Nat.div_one] using decode_fbread hop hz
  · rw [exec_of_ok (i := .fbread i) (fbreadEffect_of_some (by omega) hf), State.complete_zero]
    rfl
  · exact exec_of_error (i := .fbread i) (fbreadEffect_of_gt hi s)
  · exact exec_of_error (i := .fbread i) (fbreadEffect_of_none (by omega) hf)

/-- Settles O5: the word is the opcode alone, and the two results are by whether the FrameBuffer is written. -/
theorem emitAppendsFrame : Obligations.EmitAppendsFrame := by
  refine ⟨?_, fun s => ⟨fun f hf => ?_, fun hf => ?_⟩⟩
  · exact spells_of_row (row := ⟨"EMIT", 0x5, 0x50000000#32, 0xFFFFFFFF#32⟩) (by decide)
      fun w hop hz => decode_emit hop hz
  · rw [exec_of_ok (i := .emit) (emitBuffer_of_some hf), State.complete_zero]
    rfl
  · exact exec_of_error (i := .emit) (emitBuffer_of_none hf)

/-- What RENDER leaves in the FrameBuffer does not depend on the state it began in (R113). -/
theorem exec_render_fb {d : Nat} (hd : d < 10) {c : Pixel} {s t : State} (h : exec (.render d c) s = .next t) :
    t.fb = some (render ⟨d, hd⟩ c) := by
  obtain rfl := Host.Outcome.next.inj ((exec_render_of_lt hd c s).symm.trans h)
  rfl

/-- Settles O15: each of the three RENDERs leaves `Render(d, c)`. -/
theorem renderIsPureAndIdempotent : Obligations.RenderIsPureAndIdempotent := by
  intro d c s s' t t' u hd ht ht' hu
  have hlt : d < 10 := by omega
  have hfb := exec_render_fb hlt ht
  exact ⟨by rw [State.fbValid, hfb]; rfl, (exec_render_fb hlt ht').trans hfb.symm, (exec_render_fb hlt hu).trans hfb.symm⟩

/-! ### The strip output trace (R118) -/

/-- A command hands the FrameBuffer to the strip driver in this state: EMIT, or STEP in phase 2. -/
def State.EmitsWith (s : State) (i : Instr) : Prop := i = .emit ∨ (i = .step ∧ s.ph = .emit)

@[simp] theorem blinkTask_trace (s : State) : (blinkTask s).trace = s.trace := by
  rcases blinkTask_cases s with ⟨-, h⟩ | ⟨-, h⟩ <;> simp [h]

@[simp] theorem pollTask_trace (b : Button) (s : State) : (pollTask b s).trace = s.trace := by
  obtain ⟨r, d, -, h⟩ := pollTask_frame b s
  simp [h]

/-- STEP's effect on the trace: the FrameBuffer in phase 2, nothing in the others. -/
theorem StepDoes.trace {s : State} {e : Effect} (h : StepDoes s e) :
    (s.ph = .emit ∧ ∃ f, s.fb = some f ∧ e.after.trace = s.trace ++ [f]) ∨
    (s.ph ≠ .emit ∧ e.after.trace = s.trace) := by
  rcases h with ⟨hp, rfl⟩ | ⟨hp, -, rfl⟩ | ⟨hp, f, hf, rfl⟩ | ⟨hp, rfl⟩ | ⟨hp, rfl⟩ | ⟨hp, rfl⟩
  case inr.inr.inl => exact .inl ⟨hp, f, hf, rfl⟩
  all_goals exact .inr ⟨by simp [hp], by simp⟩

/-- A command that raises no fault appends the FrameBuffer to the trace when it emits, and leaves the trace otherwise. -/
theorem effectOf_trace {i : Instr} {s : State} {e : Effect} (h : effectOf i s = .ok e) :
    (s.EmitsWith i ∧ ∃ f, s.fb = some f ∧ e.after.trace = s.trace ++ [f]) ∨
    (¬ s.EmitsWith i ∧ e.after.trace = s.trace) := by
  unfold State.EmitsWith
  rcases effectOf_ok h with ⟨v, rfl, hi⟩ | ⟨f, rfl, hi⟩ | ⟨f, hf, rfl, rfl⟩ | ⟨rfl, rfl⟩ | ⟨b, rfl, rfl⟩ |
    ⟨d, -, rfl, hi⟩ | ⟨n, rfl, rfl⟩ | ⟨rfl, hs⟩
  · exact .inr ⟨by rcases hi with ⟨d, r, rfl⟩ | ⟨n, rfl⟩ <;> simp, rfl⟩
  · exact .inr ⟨by rcases hi with ⟨d, c, rfl⟩ | rfl <;> simp, rfl⟩
  · exact .inl ⟨.inl rfl, f, hf, rfl⟩
  · exact .inr ⟨by simp, blinkTask_trace s⟩
  · exact .inr ⟨by simp, pollTask_trace b s⟩
  · exact .inr ⟨by rcases hi with rfl | rfl <;> simp, rfl⟩
  · exact .inr ⟨by simp, rfl⟩
  · simpa using hs.trace

/-- Settles O18: a completed step's effect decides the trace, and a fault leaves it. -/
theorem traceGrowsOnlyByEmission : Obligations.TraceGrowsOnlyByEmission := by
  refine ⟨rfl, fun s t h => ?_⟩
  rcases step_completes_or_raises h with ⟨i, e, hc, he, rfl⟩ | ⟨k, w, rfl⟩
  · have hrun : (e.after.complete e.cost).running := (effectOf_sameControl he).fault.trans (step_cases h).1
    have hemits : (s.nextCommand = some .emit ∨ (s.nextCommand = some .step ∧ s.ph = .emit)) ↔ s.EmitsWith i := by
      simp [hc, State.EmitsWith]
    rw [hemits, State.complete_trace]
    rcases effectOf_trace he with ⟨hem, f, hf, htr⟩ | ⟨hem, htr⟩
    · exact ⟨.inr ⟨f, hf, htr⟩, iff_of_true (by simp [htr]) ⟨hrun, hem⟩⟩
    · exact ⟨.inl htr, iff_of_false (not_not_intro htr) fun h => hem h.2⟩
  · exact ⟨.inl rfl, by simp⟩

end Sys2Proof.Machine

/-! ## The family of 42_debounce_select.md: the selection, the debounce machine of a poll, and the run of a held button -/

namespace Sys2Proof.Machine

/-! ### The selection (R141, R144) -/

theorem toNat_incDigit (d : BitVec 4) : (incDigit d).toNat = (d.toNat + 1) % 10 := by
  rw [incDigit, BitVec.toNat_ofNat]
  omega

theorem toNat_decDigit (d : BitVec 4) : (decDigit d).toNat = (d.toNat + 9) % 10 := by
  rw [decDigit, BitVec.toNat_ofNat]
  omega

theorem toNat_pressDigit (b : Button) (d : BitVec 4) :
    (pressDigit b d).toNat = (d.toNat + if b = .inc then 1 else 9) % 10 := by
  cases b
  · exact toNat_incDigit d
  · exact toNat_decDigit d

/-- Repeated increments add up modulo 10. -/
theorem toNat_iterate_incDigit {d : BitVec 4} (hd : d.toNat ≤ 9) (n : Nat) :
    (incDigit^[n] d).toNat = (d.toNat + n) % 10 := by
  induction n with
  | zero => exact (Nat.mod_eq_of_lt (Nat.lt_succ_of_le hd)).symm
  | succ n ih => rw [Function.iterate_succ_apply', toNat_incDigit, ih, Nat.mod_add_mod, Nat.add_assoc]

/-- Settles O36: each law holds of the digits' values modulo 10, and ten and twelve increments are a count of increments. -/
theorem selectionWrapsModuloTen : Obligations.SelectionWrapsModuloTen := by
  refine ⟨fun d hd => ⟨toNat_incDigit d, toNat_decDigit d, ?_, ?_, ?_⟩, by decide, by decide, ?_⟩ <;>
    apply BitVec.eq_of_toNat_eq
  · rw [toNat_incDigit, toNat_decDigit]
    omega
  · rw [toNat_decDigit, toNat_incDigit]
    omega
  · rw [toNat_iterate_incDigit hd]
    omega
  · exact toNat_iterate_incDigit (d := 0#4) (by decide) 12

/-! ### The words of the three commands -/

theorem decode_poll {w : Word} (hop : bits w 28 4 = 0x7) (hz : reservedField w = 0) :
    decode w = .ok (.poll (Button.ofNumber (bits w 0 1))) := by
  obtain ⟨-, -, -, -, -, -, h7, -⟩ := decode_of_opcode w
  have hres : bits w 1 27 = 0 := bits_of_reservedField hop hz
  rw [h7 hop, hres, ifZero_zero]

theorem decode_selinc {w : Word} (hop : bits w 28 4 = 0x8) (hz : reservedField w = 0) : decode w = .ok .selinc := by
  obtain ⟨-, -, -, -, -, -, -, h8, -⟩ := decode_of_opcode w
  have hres : bits w 0 28 = 0 := bits_of_reservedField hop hz
  rw [h8 hop, hres, ifZero_zero]

theorem decode_seldec {w : Word} (hop : bits w 28 4 = 0x9) (hz : reservedField w = 0) : decode w = .ok .seldec := by
  obtain ⟨-, -, -, -, -, -, -, -, h9, -⟩ := decode_of_opcode w
  have hres : bits w 0 28 = 0 := bits_of_reservedField hop hz
  rw [h9 hop, hres, ifZero_zero]

/-! ### SELINC and SELDEC -/

/-- Settles O8: the word is the opcode alone, and the effect is one write of the digit. -/
theorem selincIncrementsDigit : Obligations.SelincIncrementsDigit := by
  refine ⟨?_, fun s => ?_⟩
  · exact spells_of_row (row := ⟨"SELINC", 0x8, 0x80000000#32, 0xFFFFFFFF#32⟩) (by decide)
      fun w hop hz => decode_selinc hop hz
  · rw [exec_of_ok (i := .selinc) rfl, State.complete_zero]
    rfl

/-- Settles O9: the word is the opcode alone, and the effect is one write of the digit. -/
theorem seldecDecrementsDigit : Obligations.SeldecDecrementsDigit := by
  refine ⟨?_, fun s => ?_⟩
  · exact spells_of_row (row := ⟨"SELDEC", 0x9, 0x90000000#32, 0xFFFFFFFF#32⟩) (by decide)
      fun w hop hz => decode_seldec hop hz
  · rw [exec_of_ok (i := .seldec) rfl, State.complete_zero]
    rfl

/-! ### The debounce machine: which transition a poll takes (R132, R133, R135) -/

theorem State.pollPress_of_high {s : State} {b : Button} (hl : s.line b = .high) : s.pollPress b = false := by
  simp [State.pollPress, State.sample, hl]

theorem State.pollPress_of_not_idle {s : State} {b : Button} (hi : s.pollIdle b = false) : s.pollPress b = false := by
  simp [State.pollPress, hi]

/-- A button that a poll does not count as Idle is Suppressed, inside its window. -/
theorem State.pollIdle_eq_false_iff (s : State) (b : Button) :
    s.pollIdle b = false ↔ (s.btn b).state = .suppressed ∧ (elapsed s.now (s.btn b).t).toNat < Config.debounceMs := by
  rw [← Bool.not_eq_true, State.pollIdle_iff, not_or, not_le]
  cases (s.btn b).state <;> simp

/-- Writing back what a button holds changes nothing. -/
theorem State.setBtn_self (s : State) (b : Button) : s.setBtn b (s.btn b) = s := by cases b <;> rfl

/-- An accepted press: Suppressed from now, and the digit changed. -/
theorem pollTask_of_press {b : Button} {s : State} (h : s.pollPress b = true) :
    pollTask b s = (s.setBtn b ⟨.suppressed, s.now⟩).writeDigit (pressDigit b s.digit) := if_pos h

/-- A high line, with no window to wait for: Idle. -/
theorem pollTask_of_high {b : Button} {s : State} (hi : s.pollIdle b = true) (hl : s.line b = .high) :
    pollTask b s = s.setBtn b ⟨.idle, (s.btn b).t⟩ := by
  simp [pollTask, State.pollPress_of_high hl, hi]

/-- Inside the window the sample is ignored. -/
theorem pollTask_of_inside {b : Button} {s : State} (hi : s.pollIdle b = false) : pollTask b s = s := by
  obtain ⟨hs, -⟩ := (s.pollIdle_eq_false_iff b).mp hi
  have hregs : (⟨.suppressed, (s.btn b).t⟩ : ButtonRegs) = s.btn b := by rw [← hs]
  simp [pollTask, State.pollPress_of_not_idle hi, hi, hregs, State.setBtn_self]

/-! ### POLL -/

/-- A poll that accepts no press answers 0 and costs nothing. -/
theorem pollEffect_of_no_press {b : Button} {s : State} (h : s.pollPress b = false) :
    pollEffect b s = ⟨(pollTask b s).writeRes 0#24, 0⟩ := by
  simp [pollEffect, pollCost, h]

theorem exec_poll_press {b : Button} {s : State}
    (hi : (s.btn b).state = .idle ∨ Config.debounceMs ≤ (elapsed s.now (s.btn b).t).toNat) (hl : s.line b = .low) :
    exec (.poll b) s = .next ((((s.setBtn b ⟨.suppressed, s.now⟩).writeDigit (pressDigit b s.digit)).writeRes 1#24).complete
      (if s.debounceMode = .blocking then Config.debounceMs else 0)) := by
  have hp : s.pollPress b = true := (s.pollPress_iff b).mpr ⟨hi, hl⟩
  rw [exec_of_ok (i := .poll b) rfl]
  simp [pollEffect, pollCost, pollTask_of_press hp, hp]

theorem exec_poll_high {b : Button} {s : State}
    (hi : (s.btn b).state = .idle ∨ Config.debounceMs ≤ (elapsed s.now (s.btn b).t).toNat) (hl : s.line b = .high) :
    exec (.poll b) s = .next (((s.setBtn b ⟨.idle, (s.btn b).t⟩).writeRes 0#24).complete 0) := by
  rw [exec_of_ok (i := .poll b) rfl, pollEffect_of_no_press (State.pollPress_of_high hl),
    pollTask_of_high ((s.pollIdle_iff b).mpr hi) hl]

theorem exec_poll_inside {b : Button} {s : State} (hs : (s.btn b).state = .suppressed)
    (ht : (elapsed s.now (s.btn b).t).toNat < Config.debounceMs) :
    exec (.poll b) s = .next ((s.writeRes 0#24).complete 0) := by
  have hi : s.pollIdle b = false := (s.pollIdle_eq_false_iff b).mpr ⟨hs, ht⟩
  rw [exec_of_ok (i := .poll b) rfl, pollEffect_of_no_press (State.pollPress_of_not_idle hi), pollTask_of_inside hi]

/-- Settles O7: the words by POLL's row of the opcode map, and for each button the three transitions of its machine. -/
theorem pollRunsDebounceMachine : Obligations.PollRunsDebounceMachine := by
  refine ⟨?_, fun s => ⟨fun hi hl => ?_, fun hi hl => ?_, fun hs ht => ?_⟩,
    fun s => ⟨fun hi hl => ?_, fun hi hl => ?_, fun hs ht => ?_⟩⟩
  · refine spells_of_row (row := ⟨"POLL", 0x7, 0x70000000#32, 0xFFFFFFFE#32⟩) (by decide) fun w hop hz => ?_
    simpa only [bits, Nat.reducePow, Nat.div_one, Button.ofNumber] using decode_poll hop hz
  · exact exec_poll_press (b := .inc) hi hl
  · rw [exec_poll_high (b := .inc) hi hl, State.complete_zero]
    rfl
  · rw [exec_poll_inside (b := .inc) hs ht, State.complete_zero]
    rfl
  · exact exec_poll_press (b := .dec) hi hl
  · rw [exec_poll_high (b := .dec) hi hl, State.complete_zero]
    rfl
  · rw [exec_poll_inside (b := .dec) hs ht, State.complete_zero]
    rfl

/-! ### What leaves the buttons -/

@[simp] theorem State.btn_complete (s : State) (cost : Nat) (b : Button) : (s.complete cost).btn b = s.btn b := by
  cases b <;> rfl

@[simp] theorem State.btn_nextPhase (s : State) (b : Button) : s.nextPhase.btn b = s.btn b := by cases b <;> rfl

@[simp] theorem State.btn_writeRes (s : State) (v : BitVec 24) (b : Button) : (s.writeRes v).btn b = s.btn b := by
  cases b <;> rfl

@[simp] theorem State.btn_raise (s : State) (k : FaultKind) (w : Word) (b : Button) : (s.raise k w).btn b = s.btn b := by
  cases b <;> rfl

@[simp] theorem blinkTask_btn (s : State) (b : Button) : (blinkTask s).btn b = s.btn b := by
  rcases blinkTask_cases s with ⟨-, h⟩ | ⟨-, h⟩ <;> rw [h] <;> cases b <;> rfl

/-! ### Every command that polls (R130, R160) -/

/-- The commands that poll button b. -/
theorem State.pollsWith_iff (s : State) (b : Button) (i : Instr) :
    s.pollsWith b i = true ↔ i = .poll b ∨ (i = .step ∧ s.ph = pollPhase b) := by
  cases i <;> simp [State.pollsWith]

/-- What runs next is spelled by the word at `pc` of a running CORE. -/
theorem State.nextCommand_eq_some_iff (s : State) (i : Instr) :
    s.nextCommand = some i ↔ s.running ∧ decode s.commandWord = .ok i := by
  by_cases hr : s.fault = .noFault
  · cases hd : decode s.commandWord <;> simp [State.nextCommand, State.running, hr, hd, Except.toOption]
  · simp [State.nextCommand, hr]

theorem step_of_nextCommand {s : State} {i : Instr} (h : s.nextCommand = some i) : step s = exec i s := by
  obtain ⟨hr, hd⟩ := (s.nextCommand_eq_some_iff i).mp h
  rw [step, State.fetch_command hr hd]

/-- STEP in the phase of button b's poll runs that poll, and moves on. -/
theorem stepEffect_of_pollPhase {s : State} {b : Button} (hp : s.ph = pollPhase b) :
    stepEffect s = .ok ⟨(pollTask b s).nextPhase, pollCost b s⟩ := by
  cases b <;> simp [stepEffect, phaseTask, hp, pollPhase]

/-- A command that polls button b completes, and leaves the button and the digit as the poll does. -/
theorem step_of_polls {s : State} {b : Button} (h : s.polls b = true) :
    ∃ t, step s = .next t ∧ t.running ∧ t.btn b = (pollTask b s).btn b ∧ t.digit = (pollTask b s).digit := by
  cases hc : s.nextCommand with
  | none => simp [State.polls, hc] at h
  | some i =>
    have hrun : (pollTask b s).running :=
      (pollTask_sameControl b s).fault.trans ((s.nextCommand_eq_some_iff i).mp hc).1
    rw [step_of_nextCommand hc]
    rw [State.polls_of_nextCommand hc, State.pollsWith_iff] at h
    obtain rfl | ⟨rfl, hp⟩ := h
    · exact ⟨_, exec_of_ok (i := .poll b) rfl, hrun, by simp [pollEffect], rfl⟩
    · exact ⟨_, exec_of_ok (i := .step) (stepEffect_of_pollPhase hp), hrun, by simp, rfl⟩

/-- What a given step that polls button b did. -/
theorem step_btn_of_polls {s t : State} {b : Button} (h : step s = .next t) (hp : s.polls b = true) :
    t.btn b = (pollTask b s).btn b ∧ t.digit = (pollTask b s).digit := by
  obtain ⟨u, hu, -, hbtn, hdigit⟩ := step_of_polls hp
  obtain rfl := Host.Outcome.next.inj (h.symm.trans hu)
  exact ⟨hbtn, hdigit⟩

theorem State.acceptsPress_iff (s : State) (b : Button) :
    s.acceptsPress b = true ↔ s.polls b = true ∧ s.pollPress b = true := by
  rw [State.pollPress_iff]
  simp [State.acceptsPress, and_assoc]

/-- An accepted press completes, and leaves the button Suppressed from its start and the digit changed. -/
theorem step_of_acceptsPress {s : State} {b : Button} (h : s.acceptsPress b = true) :
    ∃ t, step s = .next t ∧ t.running ∧ t.btn b = ⟨.suppressed, s.now⟩ ∧ t.digit = pressDigit b s.digit := by
  obtain ⟨hp, hpress⟩ := (s.acceptsPress_iff b).mp h
  simpa [pollTask_of_press hpress] using step_of_polls hp

/-! ### No other command touches a button (R137) -/

/-- The poll of one button leaves the other. -/
theorem pollTask_btn_other {b b' : Button} (hb : b' ≠ b) (s : State) : (pollTask b s).btn b' = s.btn b' := by
  obtain ⟨r, d, -, h⟩ := pollTask_frame b s
  rw [h, State.btn_writeDigit, State.btn_setBtn_other s hb]

theorem StepDoes.btn {s : State} {e : Effect} (h : StepDoes s e) {b : Button} (hb : s.ph ≠ pollPhase b) :
    e.after.btn b = s.btn b := by
  rcases h with ⟨-, rfl⟩ | ⟨-, -, rfl⟩ | ⟨-, f, -, rfl⟩ | ⟨hp, rfl⟩ | ⟨hp, rfl⟩ | ⟨-, rfl⟩
  · simp
  · cases b <;> rfl
  · cases b <;> rfl
  · have hne : b ≠ .inc := by rintro rfl; exact hb hp
    simp [pollTask_btn_other hne]
  · have hne : b ≠ .dec := by rintro rfl; exact hb hp
    simp [pollTask_btn_other hne]
  · simp

theorem effectOf_btn {i : Instr} {s : State} {e : Effect} {b : Button} (h : effectOf i s = .ok e)
    (hb : s.pollsWith b i = false) : e.after.btn b = s.btn b := by
  rcases effectOf_ok h with ⟨v, rfl, -⟩ | ⟨f, rfl, -⟩ | ⟨f, -, rfl, -⟩ | ⟨rfl, -⟩ | ⟨b', rfl, rfl⟩ | ⟨d, -, rfl, -⟩ |
    ⟨n, rfl, -⟩ | ⟨rfl, hs⟩
  · simp
  · cases b <;> rfl
  · cases b <;> rfl
  · simp
  · have hne : b ≠ b' := by rintro rfl; simp [State.pollsWith] at hb
    simp [pollEffect, pollTask_btn_other hne]
  · simp
  · rfl
  · exact hs.btn (by simpa [State.pollsWith] using hb)

theorem step_btn_of_not_polls {s t : State} {b : Button} (h : step s = .next t) (hp : s.polls b = false) :
    t.btn b = s.btn b := by
  rcases step_completes_or_raises h with ⟨i, e, hc, he, rfl⟩ | ⟨k, w, rfl⟩
  · rw [State.polls_of_nextCommand hc] at hp
    rw [State.btn_complete, effectOf_btn he hp]
  · exact State.btn_raise s k w b

/-- Settles O37: a step that polls does what its poll does, and one that does not poll leaves the button. -/
theorem debounceMachineOfEveryPoll : Obligations.DebounceMachineOfEveryPoll := by
  refine fun s t b h => ⟨fun hp => ?_, fun hs ht => ?_, fun hne => ?_⟩
  · obtain ⟨hbtn, hdigit⟩ := step_btn_of_polls h hp
    rw [hbtn, hdigit]
    refine ⟨fun hi => ⟨fun hl => ?_, fun hl => ?_⟩, fun hs hin => ?_⟩
    · rw [pollTask_of_press ((s.pollPress_iff b).mpr ⟨hi, hl⟩)]
      simp [toNat_pressDigit]
    · rw [pollTask_of_high ((s.pollIdle_iff b).mpr hi) hl]
      simp
    · rw [pollTask_of_inside ((s.pollIdle_eq_false_iff b).mpr ⟨hs, hin⟩)]
      exact ⟨rfl, rfl⟩
  · cases hp : s.polls b with
    | false => simp [step_btn_of_not_polls h hp, hs] at ht
    | true =>
      rw [State.acceptsPress_eq_pollPress hp]
      obtain ⟨hbtn, -⟩ := step_btn_of_polls h hp
      rcases pollTask_cases b s with ⟨hpress, -⟩ | ⟨-, -, htask⟩ | ⟨-, hin, -⟩
      · exact hpress
      · simp [hbtn, htask] at ht
      · simp [State.pollIdle, hs] at hin
  · by_contra hp
    exact hne (step_btn_of_not_polls h (Bool.eq_false_of_not_eq_true hp))

/-! ### Accepted presses keep the window apart (R138) -/

theorem advance_advance (t : Time) (m n : Nat) : advance (advance t m) n = advance t (m + n) := by
  simp only [advance, BitVec.ofNat_add, BitVec.add_assoc]

/-- A completed command takes its time. -/
theorem step_now {s t : State} (h : step s = .next t) (hr : t.running) : t.now = advance s.now s.timeSpent := by
  obtain ⟨-, hstep, -⟩ := completedCommandAdvancesPcAndTime
  obtain ⟨hrun, -⟩ := hstep s t h
  apply BitVec.eq_of_toNat_eq
  rw [toNat_advance, (hrun hr).2, State.timeSpent, Nat.add_assoc]

/-- A step leaves a button that is Suppressed inside its window. -/
theorem step_btn_of_inside {s t : State} {b : Button} (h : step s = .next t) (hi : s.pollIdle b = false) :
    t.btn b = s.btn b := by
  cases hp : s.polls b with
  | false => exact step_btn_of_not_polls h hp
  | true =>
    obtain ⟨hbtn, -⟩ := step_btn_of_polls h hp
    rw [hbtn, pollTask_of_inside hi]

/-- From n ms of true time after a press at t0, with the button Suppressed since, T ms further on: the time since the press is
the window or more, or the button is still Suppressed since t0. -/
theorem suppressed_of_reaches {b : Button} {s t : State} {t0 : Time} {n T : Nat} (h : Reaches s T t)
    (hnow : s.now = advance t0 n) (hbtn : s.btn b = ⟨.suppressed, t0⟩) :
    t.now = advance t0 (n + T) ∧ (Config.debounceMs ≤ n + T ∨ t.btn b = ⟨.suppressed, t0⟩) := by
  induction h with
  | refl => exact ⟨hnow, .inr hbtn⟩
  | @tail T t u _ hstep hrun ih =>
    obtain ⟨hnow', hsince⟩ := ih
    refine ⟨by rw [step_now hstep hrun, hnow', advance_advance, Nat.add_assoc], ?_⟩
    by_cases hlt : n + T < Config.debounceMs
    · have hbtn' := hsince.resolve_left (by omega)
      have hin : t.pollIdle b = false := by
        rw [State.pollIdle_eq_false_iff, hbtn', hnow', toNat_elapsed_advance]
        exact ⟨rfl, (Nat.mod_le _ _).trans_lt hlt⟩
      exact .inr ((step_btn_of_inside hstep hin).trans hbtn')
    · exact .inl (by omega)

/-- Settles O40: while the button stays Suppressed since the first press, the second needs the window over, and later the
true gap is the window or more already. -/
theorem pressesKeepTheWindowApart : Obligations.PressesKeepTheWindowApart := by
  intro b s1 s2 s3 T ha1 h12 h23 ha3 hT
  obtain ⟨u, hu, hrun, hbtn, -⟩ := step_of_acceptsPress ha1
  obtain rfl := Host.Outcome.next.inj (h12.symm.trans hu)
  obtain ⟨hnow, hsince⟩ := suppressed_of_reaches h23 (step_now h12 hrun) hbtn
  have hgap : (elapsed s3.now s1.now).toNat = s1.timeSpent + T := by
    rw [hnow, toNat_elapsed_advance, Nat.mod_eq_of_lt hT]
  obtain hlong | hsup := hsince
  · rwa [hgap]
  · obtain ⟨-, hpress⟩ := (s3.acceptsPress_iff b).mp ha3
    obtain ⟨hready, -⟩ := (s3.pollPress_iff b).mp hpress
    simpa [hsup] using hready

/-! ### The main loop keeps its invariant and does not stop (R160) -/

theorem State.nextCommand_of_stepsAhead {s : State} {k : Nat} (hr : s.running) (h : s.stepsAhead (k + 1)) :
    s.nextCommand = some .step := by
  refine (s.nextCommand_eq_some_iff .step).mpr ⟨hr, ?_⟩
  rw [State.commandWord, ← Nat.add_zero s.pc, h 0 (Nat.succ_pos k)]
  decide

/-- With STEP next, button b is polled in its phase. -/
theorem State.polls_iff_of_step {s : State} (h : s.nextCommand = some .step) (b : Button) :
    s.polls b = true ↔ s.ph = pollPhase b := by
  rw [State.polls_of_nextCommand h, State.pollsWith_iff]
  simp

/-- STEP raises no fault in a state that meets the invariant: the digit is 0 to 9, and phase 2 finds a written
FrameBuffer. -/
theorem State.Inv.exists_stepEffect {s : State} (h : s.Inv) : ∃ e, stepEffect s = .ok e := by
  cases he : stepEffect s with
  | ok e => exact ⟨e, rfl⟩
  | error k =>
    have hcause := effectOf_error (i := .step) he
    simp only [reduceCtorEq, false_and, exists_false, true_and, false_or] at hcause
    obtain ⟨-, hd, -⟩ | ⟨-, hfb, hp⟩ := hcause
    · have := h.digit_range
      omega
    · have := h.rendered (by rw [hp]; rfl)
      simp [State.fbValid, hfb] at this

/-- A poll that accepts no press leaves the digit. -/
theorem pollTask_digit_of_no_press {b : Button} {s : State} (h : s.pollPress b = false) :
    (pollTask b s).digit = s.digit := by
  rcases pollTask_cases b s with ⟨hp, -⟩ | ⟨-, -, ht⟩ | ⟨-, -, ht⟩
  · simp [h] at hp
  · simp [ht]
  · simp [ht]

theorem StepDoes.digit_of_no_press {s : State} {e : Effect} (h : StepDoes s e)
    (hno : ∀ b, s.ph = pollPhase b → s.pollPress b = false) : e.after.digit = s.digit := by
  rcases h with ⟨-, rfl⟩ | ⟨-, -, rfl⟩ | ⟨-, f, -, rfl⟩ | ⟨hp, rfl⟩ | ⟨hp, rfl⟩ | ⟨-, rfl⟩
  · rcases blinkTask_cases s with ⟨-, ht⟩ | ⟨-, ht⟩ <;> simp [ht]
  · rfl
  · rfl
  · exact pollTask_digit_of_no_press (hno .inc hp)
  · exact pollTask_digit_of_no_press (hno .dec hp)
  · rfl

theorem State.Inv.complete {s : State} (h : s.Inv) (cost : Nat) : (s.complete cost).Inv := { h with }

theorem State.Inv.nextPhase {s : State} (h : s.Inv) (hf : s.ph.next.afterRender = true → s.fbValid = true) :
    s.nextPhase.Inv := { h with rendered := hf }

theorem State.Inv.writeFb {s : State} (h : s.Inv) (f : Frame) : (s.writeFb f).Inv := { h with rendered := fun _ => rfl }

theorem State.Inv.emitFrame {s : State} (h : s.Inv) (f : Frame) : (s.emitFrame f).Inv := { h with }

theorem State.Inv.blinkTask {s : State} (h : s.Inv) : (blinkTask s).Inv := by
  rcases blinkTask_cases s with ⟨-, ht⟩ | ⟨-, ht⟩ <;> rw [ht] <;> exact { h with status_follows := rfl }

theorem State.Inv.pollTask {s : State} (h : s.Inv) (b : Button) : (pollTask b s).Inv := by
  obtain ⟨r, d, hd, ht⟩ := pollTask_frame b s
  have hdigit : d.toNat ≤ 9 := by
    obtain rfl | rfl := hd
    · exact h.digit_range
    · exact pressDigit_le b s.digit
  rw [ht]
  cases b <;> exact { h with digit_range := hdigit }

/-- STEP keeps the invariant. -/
theorem StepDoes.inv {s : State} {e : Effect} (h : StepDoes s e) (hi : s.Inv) : e.after.Inv := by
  rcases h with ⟨hp, rfl⟩ | ⟨-, -, rfl⟩ | ⟨-, f, hf, rfl⟩ | ⟨hp, rfl⟩ | ⟨hp, rfl⟩ | ⟨hp, rfl⟩
  · exact hi.blinkTask.nextPhase fun hr => by simp [hp, Phase.next, Phase.afterRender] at hr
  · exact (hi.writeFb _).nextPhase fun _ => rfl
  · exact (hi.emitFrame f).nextPhase fun _ => by simp [State.fbValid, hf]
  · exact (hi.pollTask .inc).nextPhase fun _ => (hi.pollTask .inc).rendered (by simp [hp, Phase.afterRender])
  · exact (hi.pollTask .dec).nextPhase fun _ => (hi.pollTask .dec).rendered (by simp [hp, Phase.afterRender])
  · exact hi.nextPhase fun hr => by simp [hp, Phase.next, Phase.afterRender] at hr

/-! ### A held button (R139) -/

theorem advance_zero (t : Time) : advance t 0 = t := BitVec.add_zero t

theorem State.stall_of_no_press {s : State} {b : Button} (h : s.pollPress b = false) : s.stall b = 0 := by
  simp [State.stall, State.acceptsPress_iff, h]

/-- The main loop in BLOCKING mode under ideal timing, with the increment button held for the next k commands. -/
structure State.HeldFor (s : State) (k : Nat) : Prop where
  inv : s.Inv
  running : s.running
  blocking : s.debounceMode = .blocking
  steps : s.stepsAhead k
  draws : s.drawsAhead k heldIncDraw

/-- One STEP from `s` to `t` that takes `ms` milliseconds, with the button held for k commands more. -/
structure State.HeldStep (s t : State) (k ms : Nat) : Prop where
  next : step s = .next t
  held : t.HeldFor k
  ph : t.ph = s.ph.next
  pc : t.pc = s.pc + 1
  now : t.now = advance s.now ms

section
variable {s : State} {k : Nat} (h : s.HeldFor (k + 1))
include h

theorem State.HeldFor.draw : s.draw = heldIncDraw := by
  rw [← State.drawAhead_zero, h.draws 0 (Nat.succ_pos k)]

/-- The next STEP completes in its task's time, and leaves the digit when it accepts no press. -/
theorem State.HeldFor.exists_step : ∃ t, s.HeldStep t k s.taskCost ∧
    ((∀ b, s.ph = pollPhase b → s.pollPress b = false) → t.digit = s.digit) := by
  have hc := State.nextCommand_of_stepsAhead h.running h.steps
  obtain ⟨e, he⟩ := h.inv.exists_stepEffect
  have hdoes := stepEffect_ok he
  have hsame := hdoes.sameControl
  have hpc : (e.after.complete e.cost).pc = s.pc + 1 := congrArg (· + 1) hsame.pc
  have hscript : (e.after.complete e.cost).script = s.script.drop 1 := by simp [hsame.script]
  have hix : (e.after.complete e.cost).drawIx = s.drawIx + 1 := congrArg (· + 1) hsame.drawIx
  have hdelta : e.after.delta = 0 := by rw [hsame.delta, State.delta, h.draw]; rfl
  refine ⟨e.after.complete e.cost, ⟨?_, ?_, hdoes.ph, hpc, ?_⟩, hdoes.digit_of_no_press⟩
  · rw [step_of_nextCommand hc, exec_of_ok (i := .step) he]
  · exact ⟨(hdoes.inv h.inv).complete _, hsame.fault.trans h.running, hsame.debounceMode.trans h.blocking,
      State.stepsAhead_drop hsame.stream hpc (Nat.add_comm k 1 ▸ h.steps),
      State.drawsAhead_drop hscript hix (Nat.add_comm k 1 ▸ h.draws)⟩
  · rw [State.complete_now, hsame.now, hdelta, hdoes.cost hc, Nat.add_zero]

/-- Outside phase 3 the STEP only passes the idle time, if any: the decrement button's line is high. -/
theorem State.HeldFor.quiet (hp : s.ph ≠ .pollInc) :
    ∃ t, s.HeldStep t k (if s.ph = .idle then Config.idleMs else 0) ∧ t.btnInc = s.btnInc ∧ t.digit = s.digit := by
  have hdec : s.pollPress .dec = false := State.pollPress_of_high (by rw [State.line_dec, h.draw]; rfl)
  have hcost : s.taskCost = if s.ph = .idle then Config.idleMs else 0 := by
    cases hph : s.ph <;> simp [State.taskCost, hph, State.stall_of_no_press hdec] at hp ⊢
  obtain ⟨t, ht, hdigit⟩ := h.exists_step
  have hc := State.nextCommand_of_stepsAhead h.running h.steps
  have hinc : s.polls .inc = false := Bool.eq_false_of_not_eq_true ((s.polls_iff_of_step hc .inc).not.mpr hp)
  refine ⟨t, hcost ▸ ht, step_btn_of_not_polls ht.next hinc, hdigit fun b hb => ?_⟩
  cases b
  · exact absurd hb hp
  · exact hdec

/-- In phase 3 the STEP accepts a press, when the button is ready for one. -/
theorem State.HeldFor.press (hp : s.ph = .pollInc)
    (hi : s.btnInc.state = .idle ∨ Config.debounceMs ≤ (elapsed s.now s.btnInc.t).toNat) :
    ∃ t, s.HeldStep t k Config.debounceMs ∧ t.btnInc = ⟨.suppressed, s.now⟩ ∧ t.digit = incDigit s.digit := by
  have hc := State.nextCommand_of_stepsAhead h.running h.steps
  have hpress : s.acceptsPress .inc = true :=
    (s.acceptsPress_iff .inc).mpr ⟨(State.polls_iff_of_step hc .inc).mpr hp,
      (s.pollPress_iff .inc).mpr ⟨hi, by rw [State.line_inc, h.draw]; rfl⟩⟩
  have hcost : s.taskCost = Config.debounceMs := by simp [State.taskCost, hp, State.stall, hpress, h.blocking]
  obtain ⟨t, ht, -⟩ := h.exists_step
  obtain ⟨u, hu, -, hbtn, hdigit⟩ := step_of_acceptsPress hpress
  obtain rfl := Host.Outcome.next.inj (ht.next.symm.trans hu)
  exact ⟨t, hcost ▸ ht, hbtn, hdigit⟩

end

theorem State.HeldReady.heldFor {s : State} {k : Nat} (h : s.HeldReady) (hs : s.stepsAhead k)
    (hd : s.drawsAhead k heldIncDraw) : s.HeldFor k := ⟨h.inv, h.running, h.blocking, hs, hd⟩

/-- One iteration of a held button: the press in its fourth STEP is the only change of the digit, and its stall and the idle
time are the 300 ms. -/
theorem State.HeldReady.iteration {s : State} {k : Nat} (h : s.HeldReady) (hk : s.HeldFor (k + 6)) :
    ∃ t, runSteps 6 s = .next t ∧ t.HeldFor k ∧ t.HeldReady ∧ t.pc = s.pc + 6 ∧ t.now = advance s.now 300 ∧
      t.digit = incDigit s.digit ∧ t.btnInc = ⟨.suppressed, s.now⟩ ∧
      Config.debounceMs ≤ (elapsed t.now t.btnInc.t).toNat := by
  have hp := h.phase
  obtain ⟨s1, h1, hb1, hd1⟩ := hk.quiet (by simp [hp])
  have hp1 : s1.ph = .render := by rw [h1.ph, hp]; rfl
  obtain ⟨s2, h2, hb2, hd2⟩ := h1.held.quiet (by simp [hp1])
  have hp2 : s2.ph = .emit := by rw [h2.ph, hp1]; rfl
  obtain ⟨s3, h3, hb3, hd3⟩ := h2.held.quiet (by simp [hp2])
  have hp3 : s3.ph = .pollInc := by rw [h3.ph, hp2]; rfl
  have hnow3 : s3.now = s.now := by simp [h3.now, h2.now, h1.now, hp, hp1, hp2, advance_zero]
  have hbtn3 : s3.btnInc = s.btnInc := by rw [hb3, hb2, hb1]
  obtain ⟨s4, h4, hb4, hd4⟩ := h3.held.press hp3 (by rw [hbtn3, hnow3]; exact h.ready)
  have hp4 : s4.ph = .pollDec := by rw [h4.ph, hp3]; rfl
  obtain ⟨s5, h5, hb5, hd5⟩ := h4.held.quiet (by simp [hp4])
  have hp5 : s5.ph = .idle := by rw [h5.ph, hp4]; rfl
  obtain ⟨t, h6, hb6, hd6⟩ := h5.held.quiet (by simp [hp5])
  have hrun : runSteps 6 s = .next t := by
    simp only [runSteps, h1.next, h2.next, h3.next, h4.next, h5.next, h6.next]
  have hnow : t.now = advance s.now 300 := by
    simp [h6.now, h5.now, h4.now, hnow3, hp4, hp5, advance_advance, Config.debounceMs, Config.idleMs]
  have hbtn : t.btnInc = ⟨.suppressed, s.now⟩ := by rw [hb6, hb5, hb4, hnow3]
  have hover : Config.debounceMs ≤ (elapsed t.now t.btnInc.t).toNat := by
    rw [hbtn, hnow, toNat_elapsed_advance]
    decide
  have hph : t.ph = .blink := by rw [h6.ph, hp5]; rfl
  have hpc : t.pc = s.pc + 6 := by rw [h6.pc, h5.pc, h4.pc, h3.pc, h2.pc, h1.pc]
  exact ⟨t, hrun, h6.held, ⟨h6.held.inv, h6.held.running, hph, h6.held.blocking, .inr hover⟩, hpc, hnow,
    by rw [hd6, hd5, hd4, hd3, hd2, hd1], hbtn, hover⟩

/-- k iterations of a held button accept k presses. -/
theorem State.HeldReady.iterations (k : Nat) {s : State} (h : s.HeldReady) (hk : s.HeldFor (6 * k)) :
    ∃ t, runSteps (6 * k) s = .next t ∧ t.HeldReady ∧ t.pc = s.pc + 6 * k ∧ t.now = advance s.now (300 * k) ∧
      t.digit.toNat = (s.digit.toNat + k) % 10 := by
  induction k generalizing s with
  | zero => exact ⟨s, rfl, h, rfl, (advance_zero _).symm, (Nat.mod_eq_of_lt (Nat.lt_succ_of_le h.inv.digit_range)).symm⟩
  | succ k ih =>
    obtain ⟨u, hu, huk, hready, hpc, hnow, hdigit, -, -⟩ := h.iteration hk
    obtain ⟨t, ht, htready, htpc, htnow, htdigit⟩ := ih hready huk
    refine ⟨t, ?_, htready, ?_, ?_, ?_⟩
    · rw [Nat.mul_succ, Nat.add_comm, runSteps_add hu, ht]
    · rw [htpc, hpc]
      omega
    · rw [htnow, hnow, advance_advance, Nat.mul_succ, Nat.add_comm 300]
    · rw [htdigit, hdigit, toNat_incDigit]
      omega

/-- Settles O42: a poll past the window on a low line accepts, and the iterations follow by induction. -/
theorem heldButtonRepeats : Obligations.HeldButtonRepeats := by
  refine ⟨fun s b hp hl hover => ?_, fun s h hs hd => ?_, fun k s h hs hd => ?_⟩
  · exact step_of_acceptsPress ((s.acceptsPress_iff b).mpr ⟨hp, (s.pollPress_iff b).mpr ⟨.inr hover, hl⟩⟩)
  · obtain ⟨t, hrun, -, hrest⟩ := h.iteration (k := 0) (h.heldFor hs hd)
    exact ⟨t, hrun, hrest⟩
  · exact h.iterations k (h.heldFor hs hd)

end Sys2Proof.Machine

/-! ## The family of 43_blink_sched.md: BLINK, WAIT and STEP, and the iterations of the main loop -/

namespace Sys2Proof.Machine

/-! ### The words of the three commands -/

theorem decode_blink {w : Word} (hop : bits w 28 4 = 0x6) (hz : reservedField w = 0) : decode w = .ok .blink := by
  obtain ⟨-, -, -, -, -, h6, -⟩ := decode_of_opcode w
  have hres : bits w 0 28 = 0 := bits_of_reservedField hop hz
  rw [h6 hop, hres, ifZero_zero]

theorem decode_wait {w : Word} (hop : bits w 28 4 = 0xA) (hz : reservedField w = 0) :
    decode w = .ok (.wait (bits w 0 16)) := by
  obtain ⟨-, -, -, -, -, -, -, -, -, hA, -⟩ := decode_of_opcode w
  have hres : bits w 16 12 = 0 := bits_of_reservedField hop hz
  rw [hA hop, hres, ifZero_zero]

theorem decode_step {w : Word} (hop : bits w 28 4 = 0xB) (hz : reservedField w = 0) : decode w = .ok .step := by
  obtain ⟨-, -, -, -, -, -, -, -, -, -, hB, -⟩ := decode_of_opcode w
  have hres : bits w 0 28 = 0 := bits_of_reservedField hop hz
  rw [hB hop, hres, ifZero_zero]

/-! ### BLINK and WAIT -/

theorem blinkTask_of_due {s : State} (h : s.blinkDue = true) :
    blinkTask s = (s.recordToggle (!s.blinkOn) s.now).driveStatus := by
  simp [blinkTask, h]

theorem blinkTask_of_not_due {s : State} (h : s.blinkDue = false) : blinkTask s = s.driveStatus := by
  simp [blinkTask, h]

theorem State.blinkDue_eq_false_iff (s : State) :
    s.blinkDue = false ↔ (elapsed s.now s.blinkT).toNat < Config.blinkMs := by
  rw [← Bool.not_eq_true, State.blinkDue_iff, not_le]

/-- Settles O6: the word is the opcode alone, and the two results are by whether the blink interval is over. -/
theorem blinkTogglesWhenDue : Obligations.BlinkTogglesWhenDue := by
  refine ⟨?_, fun s => ⟨fun hdue => ?_, fun hdue => ?_⟩⟩
  · exact spells_of_row (row := ⟨"BLINK", 0x6, 0x60000000#32, 0xFFFFFFFF#32⟩) (by decide)
      fun w hop hz => decode_blink hop hz
  · rw [exec_of_ok (i := .blink) rfl, blinkTask_of_due (s.blinkDue_iff.mpr hdue), State.complete_zero]
    rfl
  · rw [exec_of_ok (i := .blink) rfl, blinkTask_of_not_due (s.blinkDue_eq_false_iff.mpr hdue), State.complete_zero]
    rfl

/-- Settles O10: the time is in the word's low half, and the effect is the cost alone. -/
theorem waitAdvancesTime : Obligations.WaitAdvancesTime := by
  refine ⟨?_, fun n s => exec_of_ok (i := .wait n) rfl⟩
  refine spells_of_row (row := ⟨"WAIT", 0xA, 0xA0000000#32, 0xFFFF0000#32⟩) (by decide) fun w hop hz => ?_
  simpa only [bits, Nat.reducePow, Nat.div_one] using decode_wait hop hz

/-! ### STEP -/

/-- STEP ends as its task does, but for the phase. -/
theorem exec_step_of_phaseTask {s : State} {e : Effect} (h : phaseTask s = .ok e) :
    exec .step s = .next ((e.after.complete e.cost).withPhase e.after.ph.next) :=
  exec_of_ok (i := .step) (e := ⟨e.after.nextPhase, e.cost⟩) (by simp [effectOf, stepEffect, h])

theorem phaseTask_of_pollPhase {s : State} {b : Button} (hp : s.ph = pollPhase b) :
    phaseTask s = .ok ⟨pollTask b s, pollCost b s⟩ := by
  cases b <;> simp [phaseTask, hp, pollPhase]

@[simp] theorem pollTask_res (b : Button) (s : State) : (pollTask b s).res = s.res := by
  obtain ⟨r, d, -, h⟩ := pollTask_frame b s
  simp [h]

/-- STEP in the phase of a poll does what POLL does alone, but for `res`, which it leaves. -/
theorem exec_step_of_pollPhase {s : State} {b : Button} (hp : s.ph = pollPhase b) :
    ∃ t, exec (.poll b) s = .next t ∧ exec .step s = .next { t with ph := (pollPhase b).next, res := s.res } := by
  refine ⟨_, exec_of_ok (i := .poll b) rfl, ?_⟩
  rw [exec_step_of_phaseTask (phaseTask_of_pollPhase hp), pollTask_ph, hp, ← pollTask_res b s]
  rfl

/-- Settles O11: in each phase STEP ends as its task does alone, in the next phase. -/
theorem stepDispatchesPhaseTask : Obligations.StepDispatchesPhaseTask := by
  refine ⟨?_, fun s hd => ⟨fun hp => ?_, fun hp => ?_, fun hp f hf => ?_, fun hp hf => ?_,
    exec_step_of_pollPhase (b := .inc), exec_step_of_pollPhase (b := .dec), fun hp => ?_⟩⟩
  · exact spells_of_row (row := ⟨"STEP", 0xB, 0xB0000000#32, 0xFFFFFFFF#32⟩) (by decide)
      fun w hop hz => decode_step hop hz
  · have ht : phaseTask s = .ok ⟨blinkTask s, 0⟩ := by simp [phaseTask, hp]
    refine ⟨_, exec_of_ok (i := .blink) rfl, ?_⟩
    rw [exec_step_of_phaseTask ht, blinkTask_ph, hp]
    rfl
  · have hr := renderSelection_of_le (s := s) (by omega)
    have ht : phaseTask s = renderSelection s := by simp [phaseTask, hp]
    refine ⟨_, exec_of_ok (i := .renders) hr, rfl, ?_⟩
    rw [exec_step_of_phaseTask (ht.trans hr), State.writeFb_ph, hp]
    rfl
  · have hr := emitBuffer_of_some hf
    have ht : phaseTask s = emitBuffer s := by simp [phaseTask, hp]
    refine ⟨_, exec_of_ok (i := .emit) hr, rfl, ?_⟩
    rw [exec_step_of_phaseTask (ht.trans hr), State.emitFrame_ph, hp]
    rfl
  · exact exec_of_error (i := .step) (stepEffect_of_none hp hf)
  · have ht : phaseTask s = .ok ⟨s, Config.idleMs⟩ := by simp [phaseTask, hp]
    rw [exec_step_of_phaseTask ht, hp]
    rfl

/-! ### What one STEP of the main loop writes (R160) -/

/-- The selected frame is rendered from the digit register itself while that is 0 to 9. -/
theorem State.selectedFrame_of_lt {s : State} (h : s.digit.toNat < 10) :
    s.selectedFrame = render ⟨s.digit.toNat, h⟩ s.color :=
  congrArg (render · s.color) (Fin.ext (Nat.mod_eq_of_lt h))

theorem State.selectedFrame_congr {s t : State} (hd : t.digit = s.digit) (hc : t.color = s.color) :
    t.selectedFrame = s.selectedFrame := by
  simp only [State.selectedFrame, hd, hc]

@[simp] theorem blinkTask_fb (s : State) : (blinkTask s).fb = s.fb := by
  rcases blinkTask_cases s with ⟨-, h⟩ | ⟨-, h⟩ <;> simp [h]

@[simp] theorem blinkTask_digit (s : State) : (blinkTask s).digit = s.digit := by
  rcases blinkTask_cases s with ⟨-, h⟩ | ⟨-, h⟩ <;> simp [h]

theorem blinkTask_blinkOn (s : State) : (blinkTask s).blinkOn = if s.blinkDue then !s.blinkOn else s.blinkOn := by
  rcases blinkTask_cases s with ⟨hd, h⟩ | ⟨hd, h⟩ <;> simp [hd, h]

theorem blinkTask_blinkT (s : State) : (blinkTask s).blinkT = if s.blinkDue then s.now else s.blinkT := by
  rcases blinkTask_cases s with ⟨hd, h⟩ | ⟨hd, h⟩ <;> simp [hd, h]

@[simp] theorem blinkTask_statusOut (s : State) : (blinkTask s).statusOut = (blinkTask s).blinkOn := by
  rcases blinkTask_cases s with ⟨-, h⟩ | ⟨-, h⟩ <;> simp [h]

@[simp] theorem pollTask_fb (b : Button) (s : State) : (pollTask b s).fb = s.fb := by
  obtain ⟨r, d, -, h⟩ := pollTask_frame b s
  simp [h]

@[simp] theorem pollTask_blinkOn (b : Button) (s : State) : (pollTask b s).blinkOn = s.blinkOn := by
  obtain ⟨r, d, -, h⟩ := pollTask_frame b s
  simp [h]

@[simp] theorem pollTask_blinkT (b : Button) (s : State) : (pollTask b s).blinkT = s.blinkT := by
  obtain ⟨r, d, -, h⟩ := pollTask_frame b s
  simp [h]

@[simp] theorem pollTask_statusOut (b : Button) (s : State) : (pollTask b s).statusOut = s.statusOut := by
  obtain ⟨r, d, -, h⟩ := pollTask_frame b s
  simp [h]

theorem pollTask_digit_le (b : Button) {s : State} (h : s.digit.toNat ≤ 9) : (pollTask b s).digit.toNat ≤ 9 := by
  obtain ⟨r, d, rfl | rfl, ht⟩ := pollTask_frame b s
  · simpa [ht] using h
  · simpa [ht] using pressDigit_le b s.digit

theorem StepDoes.fb {s : State} {e : Effect} (h : StepDoes s e) :
    e.after.fb = if s.ph = .render then some s.selectedFrame else s.fb := by
  rcases h with ⟨hp, rfl⟩ | ⟨hp, hd, rfl⟩ | ⟨hp, f, -, rfl⟩ | ⟨hp, rfl⟩ | ⟨hp, rfl⟩ | ⟨hp, rfl⟩
  case inr.inl => simp [hp, State.selectedFrame_of_lt hd]
  all_goals simp [hp]

/-- STEP runs the blinker in phase 0, and leaves it and the status output alone in the others. -/
theorem StepDoes.blinker {s : State} {e : Effect} (h : StepDoes s e) :
    (s.ph = .blink ∧ e.after = (blinkTask s).nextPhase) ∨
    (s.ph ≠ .blink ∧ e.after.blinkOn = s.blinkOn ∧ e.after.blinkT = s.blinkT ∧ e.after.statusOut = s.statusOut) := by
  rcases h with ⟨hp, rfl⟩ | ⟨hp, -, rfl⟩ | ⟨hp, f, -, rfl⟩ | ⟨hp, rfl⟩ | ⟨hp, rfl⟩ | ⟨hp, rfl⟩
  case inl => exact .inl ⟨hp, rfl⟩
  all_goals exact .inr ⟨by simp [hp], by simp, by simp, by simp⟩

theorem StepDoes.digit_le {s : State} {e : Effect} (h : StepDoes s e) (hd : s.digit.toNat ≤ 9) :
    e.after.digit.toNat ≤ 9 := by
  rcases h with ⟨-, rfl⟩ | ⟨-, -, rfl⟩ | ⟨-, f, -, rfl⟩ | ⟨-, rfl⟩ | ⟨-, rfl⟩ | ⟨-, rfl⟩
  case inr.inr.inr.inl => exact pollTask_digit_le .inc hd
  case inr.inr.inr.inr.inl => exact pollTask_digit_le .dec hd
  all_goals simpa using hd

/-- STEP leaves a written FrameBuffer in the phases after the render. -/
theorem StepDoes.rendered {s : State} {e : Effect} (h : StepDoes s e)
    (hr : s.ph.afterRender = true → s.fbValid = true) (hp : e.after.ph.afterRender = true) : e.after.fbValid = true := by
  rw [h.ph] at hp
  rw [State.fbValid, h.fb]
  cases hs : s.ph <;> rw [hs] at hp hr
  case render => rfl
  case emit => exact hr rfl
  case pollInc => exact hr rfl
  case pollDec => exact hr rfl
  all_goals exact absurd hp (by decide)

/-! ### The main loop, STEP by STEP -/

/-- The main loop with STEP ahead for the next k commands: what keeps these STEPs from raising a fault. It does not ask for
the stream's canonical form, since R166 after reset holds with any stream. -/
structure State.Looping (s : State) (k : Nat) : Prop where
  digit_range : s.digit.toNat ≤ 9
  rendered : s.ph.afterRender = true → s.fbValid = true
  running : s.running
  steps : s.stepsAhead k

theorem State.Inv.looping {s : State} {k : Nat} (h : s.Inv) (hr : s.running) (hs : s.stepsAhead k) : s.Looping k :=
  ⟨h.digit_range, h.rendered, hr, hs⟩

/-- What one STEP of the main loop does, with k more ahead. -/
structure State.LoopStep (s t : State) (k : Nat) : Prop where
  next : step s = .next t
  looping : t.Looping k
  inv : s.Inv → t.Inv
  ph : t.ph = s.ph.next
  pc : t.pc = s.pc + 1
  now : t.now = advance s.now (s.taskCost + (s.drawAhead 0).delta)
  color : t.color = s.color
  mode : t.debounceMode = s.debounceMode
  draws : ∀ j, t.drawAhead j = s.drawAhead (j + 1)
  fb : t.fb = if s.ph = .render then some s.selectedFrame else s.fb
  trace : t.trace = if s.ph = .emit then s.trace ++ s.fb.toList else s.trace
  blinkOn : t.blinkOn = if s.ph = .blink ∧ s.blinkDue = true then !s.blinkOn else s.blinkOn
  blinkT : t.blinkT = if s.ph = .blink ∧ s.blinkDue = true then s.now else s.blinkT
  statusOut : t.statusOut = if s.ph = .blink then t.blinkOn else s.statusOut
  digit : (s.ph = .pollInc → s.pollPress .inc = false) → (s.ph = .pollDec → s.pollPress .dec = false) →
    t.digit = s.digit

/-- With a digit of 0 to 9, and a written FrameBuffer where phase 2 needs it, STEP raises no fault. -/
theorem State.Looping.exists_stepEffect {s : State} {k : Nat} (h : s.Looping k) : ∃ e, stepEffect s = .ok e := by
  have hr := renderSelection_of_le (Nat.lt_succ_of_le h.digit_range)
  cases hp : s.ph
  case emit =>
    obtain ⟨f, hf⟩ := Option.isSome_iff_exists.mp (h.rendered (by rw [hp]; rfl))
    simp [stepEffect, phaseTask, hp, emitBuffer_of_some hf]
  all_goals simp [stepEffect, phaseTask, hp, hr]

theorem State.Looping.exists_loopStep {s : State} {k : Nat} (h : s.Looping (k + 1)) : ∃ t, s.LoopStep t k := by
  have hc := State.nextCommand_of_stepsAhead h.running h.steps
  obtain ⟨e, he⟩ := h.exists_stepEffect
  have hdoes := stepEffect_ok he
  have hsame := hdoes.sameControl
  have hpc : (e.after.complete e.cost).pc = s.pc + 1 := congrArg (· + 1) hsame.pc
  have hscript : (e.after.complete e.cost).script = s.script.drop 1 := by simp [hsame.script]
  have hix : (e.after.complete e.cost).drawIx = s.drawIx + 1 := congrArg (· + 1) hsame.drawIx
  refine ⟨e.after.complete e.cost, ?_, ?_, fun hi => (hdoes.inv hi).complete _, hdoes.ph, hpc, ?_, hsame.color,
    hsame.debounceMode, fun j => ?_, hdoes.fb, ?_, ?_, ?_, ?_, fun hinc hdec => ?_⟩
  · rw [step_of_nextCommand hc, exec_of_ok (i := .step) he]
  · exact ⟨hdoes.digit_le h.digit_range, hdoes.rendered h.rendered, hsame.fault.trans h.running,
      State.stepsAhead_drop hsame.stream hpc (Nat.add_comm k 1 ▸ h.steps)⟩
  · rw [State.complete_now, hsame.now, hsame.delta, hdoes.cost hc, State.drawAhead_zero]
    rfl
  · rw [State.drawAhead_of_drop hscript hix, Nat.add_comm]
  · rw [State.complete_trace]
    rcases hdoes.trace with ⟨hp, f, hf, ht⟩ | ⟨hp, ht⟩
    · simp [hp, hf, ht]
    · simp [hp, ht]
  · rcases hdoes.blinker with ⟨hp, ht⟩ | ⟨hp, hon, -, -⟩
    · simp [hp, ht, blinkTask_blinkOn]
    · simp [hp, hon]
  · rcases hdoes.blinker with ⟨hp, ht⟩ | ⟨hp, -, hT, -⟩
    · simp [hp, ht, blinkTask_blinkT]
    · simp [hp, hT]
  · rcases hdoes.blinker with ⟨hp, ht⟩ | ⟨hp, -, -, hs⟩
    · simp [hp, ht]
    · simp [hp, hs]
  · refine hdoes.digit_of_no_press fun b hb => ?_
    cases b
    · exact hinc hb
    · exact hdec hb

/-! ### The halves of an iteration -/

/-- Phases 0 to 2 of an iteration: the blinker, the render and the emission. -/
structure State.FrameSteps (s s1 s2 s3 : State) (k : Nat) : Prop where
  ph : s.ph = .blink
  blink : s.LoopStep s1 (k + 2)
  render : s1.LoopStep s2 (k + 1)
  emit : s2.LoopStep s3 k

/-- Phases 3 to 5 of an iteration: the two polls and the idle time. -/
structure State.PollSteps (s3 s4 s5 t : State) (k : Nat) : Prop where
  ph : s3.ph = .pollInc
  inc : s3.LoopStep s4 (k + 2)
  dec : s4.LoopStep s5 (k + 1)
  idle : s5.LoopStep t k

theorem State.Looping.exists_frameSteps {s : State} {k : Nat} (h : s.Looping (k + 3)) (hp : s.ph = .blink) :
    ∃ s1 s2 s3, s.FrameSteps s1 s2 s3 k := by
  obtain ⟨s1, h1⟩ := h.exists_loopStep
  obtain ⟨s2, h2⟩ := h1.looping.exists_loopStep
  obtain ⟨s3, h3⟩ := h2.looping.exists_loopStep
  exact ⟨s1, s2, s3, hp, h1, h2, h3⟩

theorem State.Looping.exists_pollSteps {s : State} {k : Nat} (h : s.Looping (k + 3)) (hp : s.ph = .pollInc) :
    ∃ s4 s5 t, s.PollSteps s4 s5 t k := by
  obtain ⟨s4, h4⟩ := h.exists_loopStep
  obtain ⟨s5, h5⟩ := h4.looping.exists_loopStep
  obtain ⟨t, h6⟩ := h5.looping.exists_loopStep
  exact ⟨s4, s5, t, hp, h4, h5, h6⟩

section
variable {s s1 s2 s3 : State} {k : Nat} (h : s.FrameSteps s1 s2 s3 k)
include h

theorem State.FrameSteps.ph1 : s1.ph = .render := by rw [h.blink.ph, h.ph]; rfl

theorem State.FrameSteps.ph2 : s2.ph = .emit := by rw [h.render.ph, h.ph1]; rfl

theorem State.FrameSteps.ph3 : s3.ph = .pollInc := by rw [h.emit.ph, h.ph2]; rfl

theorem State.FrameSteps.run_two : runSteps 2 s = .next s2 := by simp only [runSteps, h.blink.next, h.render.next]

theorem State.FrameSteps.run : runSteps 3 s = .next s3 := by
  simp only [runSteps, h.blink.next, h.render.next, h.emit.next]

theorem State.FrameSteps.inv (hi : s.Inv) : s3.Inv := h.emit.inv (h.render.inv (h.blink.inv hi))

theorem State.FrameSteps.pc : s3.pc = s.pc + 3 := by rw [h.emit.pc, h.render.pc, h.blink.pc]

theorem State.FrameSteps.color : s3.color = s.color := by rw [h.emit.color, h.render.color, h.blink.color]

theorem State.FrameSteps.mode : s3.debounceMode = s.debounceMode := by rw [h.emit.mode, h.render.mode, h.blink.mode]

theorem State.FrameSteps.draws (j : Nat) : s3.drawAhead j = s.drawAhead (j + 3) := by
  rw [h.emit.draws, h.render.draws, h.blink.draws]

theorem State.FrameSteps.digit : s3.digit = s.digit := by
  rw [h.emit.digit (by simp [h.ph2]) (by simp [h.ph2]), h.render.digit (by simp [h.ph1]) (by simp [h.ph1]),
    h.blink.digit (by simp [h.ph]) (by simp [h.ph])]

/-- The three phases take their draws alone. -/
theorem State.FrameSteps.now :
    s3.now = advance s.now ((s.drawAhead 0).delta + (s.drawAhead 1).delta + (s.drawAhead 2).delta) := by
  rw [h.emit.now, h.render.now, h.blink.now, h.render.draws, h.blink.draws, h.blink.draws]
  simp only [State.taskCost, h.ph, h.ph1, h.ph2, advance_advance, Nat.zero_add]

/-- Phase 1 puts the frame of the digit at the start into the FrameBuffer. -/
theorem State.FrameSteps.fb2 : s2.fb = some s.selectedFrame := by
  have hdigit : s1.digit = s.digit := h.blink.digit (by simp [h.ph]) (by simp [h.ph])
  rw [h.render.fb, if_pos h.ph1, State.selectedFrame_congr hdigit h.blink.color]

theorem State.FrameSteps.trace2 : s2.trace = s.trace := by simp [h.render.trace, h.blink.trace, h.ph1, h.ph]

theorem State.FrameSteps.fb : s3.fb = some s.selectedFrame := by simp [h.emit.fb, h.ph2, h.fb2]

/-- Phase 2 emits that frame. -/
theorem State.FrameSteps.trace : s3.trace = s.trace ++ [s.selectedFrame] := by
  simp [h.emit.trace, h.ph2, h.fb2, h.trace2]

theorem State.FrameSteps.blinkOn : s3.blinkOn = if s.blinkDue then !s.blinkOn else s.blinkOn := by
  simp [h.emit.blinkOn, h.render.blinkOn, h.blink.blinkOn, h.ph2, h.ph1, h.ph]

theorem State.FrameSteps.blinkT : s3.blinkT = if s.blinkDue then s.now else s.blinkT := by
  simp [h.emit.blinkT, h.render.blinkT, h.blink.blinkT, h.ph2, h.ph1, h.ph]

theorem State.FrameSteps.statusOut : s3.statusOut = s3.blinkOn := by
  simp [h.emit.statusOut, h.render.statusOut, h.blink.statusOut, h.emit.blinkOn, h.render.blinkOn, h.ph2, h.ph1, h.ph]

end

section
variable {s3 s4 s5 t : State} {k : Nat} (h : s3.PollSteps s4 s5 t k)
include h

theorem State.PollSteps.ph4 : s4.ph = .pollDec := by rw [h.inc.ph, h.ph]; rfl

theorem State.PollSteps.ph5 : s5.ph = .idle := by rw [h.dec.ph, h.ph4]; rfl

theorem State.PollSteps.ph_end : t.ph = .blink := by rw [h.idle.ph, h.ph5]; rfl

theorem State.PollSteps.run_two : runSteps 2 s4 = .next t := by simp only [runSteps, h.dec.next, h.idle.next]

theorem State.PollSteps.run : runSteps 3 s3 = .next t := by rw [runSteps_succ h.inc.next, h.run_two]

theorem State.PollSteps.inv (hi : s3.Inv) : t.Inv := h.idle.inv (h.dec.inv (h.inc.inv hi))

theorem State.PollSteps.pc : t.pc = s3.pc + 3 := by rw [h.idle.pc, h.dec.pc, h.inc.pc]

theorem State.PollSteps.color : t.color = s3.color := by rw [h.idle.color, h.dec.color, h.inc.color]

theorem State.PollSteps.draws (j : Nat) : t.drawAhead j = s3.drawAhead (j + 3) := by
  rw [h.idle.draws, h.dec.draws, h.inc.draws]

/-- The three phases take the stalls of the presses, the idle time and their draws. -/
theorem State.PollSteps.now : t.now = advance s3.now (s3.stall .inc + s4.stall .dec + Config.idleMs +
    ((s3.drawAhead 0).delta + (s3.drawAhead 1).delta + (s3.drawAhead 2).delta)) := by
  rw [h.idle.now, h.dec.now, h.inc.now, h.dec.draws, h.inc.draws, h.inc.draws]
  simp only [State.taskCost, h.ph, h.ph4, h.ph5, advance_advance, Nat.reduceAdd]
  congr 1
  omega

theorem State.PollSteps.fb : t.fb = s3.fb := by simp [h.idle.fb, h.dec.fb, h.inc.fb, h.ph5, h.ph4, h.ph]

theorem State.PollSteps.trace : t.trace = s3.trace := by
  simp [h.idle.trace, h.dec.trace, h.inc.trace, h.ph5, h.ph4, h.ph]

theorem State.PollSteps.blinkOn : t.blinkOn = s3.blinkOn := by
  simp [h.idle.blinkOn, h.dec.blinkOn, h.inc.blinkOn, h.ph5, h.ph4, h.ph]

theorem State.PollSteps.blinkT : t.blinkT = s3.blinkT := by
  simp [h.idle.blinkT, h.dec.blinkT, h.inc.blinkT, h.ph5, h.ph4, h.ph]

theorem State.PollSteps.statusOut : t.statusOut = s3.statusOut := by
  simp [h.idle.statusOut, h.dec.statusOut, h.inc.statusOut, h.ph5, h.ph4, h.ph]

/-- Polls that accept no press leave the digit. -/
theorem State.PollSteps.digit (hinc : s3.pollPress .inc = false) (hdec : s4.pollPress .dec = false) :
    t.digit = s3.digit := by
  rw [h.idle.digit (by simp [h.ph5]) (by simp [h.ph5]), h.dec.digit (by simp [h.ph4]) (fun _ => hdec),
    h.inc.digit (fun _ => hinc) (by simp [h.ph])]

end

/-! ### Any iteration (R163, R165) -/

/-- A stall by the mode of a state that shares it. -/
theorem State.stall_of_mode {s t : State} (h : t.debounceMode = s.debounceMode) (b : Button) :
    t.stall b = if s.debounceMode = .blocking ∧ t.acceptsPress b = true then Config.debounceMs else 0 :=
  if_congr (by rw [h, and_comm]) rfl rfl

/-- Settles O43: the time of the frame's phases and of the polls' phases, added up. -/
theorem iterationTimeIsIdlePlusStallsPlusDraws : Obligations.IterationTimeIsIdlePlusStallsPlusDraws := by
  intro s hi hr hp hs
  obtain ⟨s1, s2, s3, hf⟩ := (hi.looping hr hs).exists_frameSteps hp
  obtain ⟨s4, s5, t, hq⟩ := hf.emit.looping.exists_pollSteps hf.ph3
  refine ⟨s3, s4, t, hf.run, hq.inc.next, hq.run_two, hf.ph3, hq.ph4, hq.ph_end, hq.idle.looping.running,
    by rw [hq.pc, hf.pc], ?_⟩
  have hinc := State.stall_of_mode hf.mode .inc
  have hdec := State.stall_of_mode (hq.inc.mode.trans hf.mode) .dec
  rw [hq.now, hf.now, advance_advance, toNat_advance, hinc, hdec]
  simp only [hf.draws, Nat.reduceAdd]
  congr 1
  omega

/-- Settles O44: the frame's phases of one iteration, its polls, and the frame's phases of the next. -/
theorem digitChangeShowsInTheNextIteration : Obligations.DigitChangeShowsInTheNextIteration := by
  intro s hi hr hp hs
  obtain ⟨s1, s2, s3, hf⟩ := (hi.looping hr hs).exists_frameSteps hp
  obtain ⟨s4, s5, t, hq⟩ := hf.emit.looping.exists_pollSteps hf.ph3
  obtain ⟨t1, u, v, hg⟩ := hq.idle.looping.exists_frameSteps hq.ph_end
  exact ⟨t, u, v, (runSteps_add hf.run 3).trans hq.run, hg.run_two, hg.emit.next, hq.trace.trans hf.trace,
    hq.fb.trans hf.fb, hg.fb2, hg.trace2, hg.trace⟩

/-! ### Ideal timing with no press (R166) -/

/-- An iteration under ideal timing with no press, with k more STEPs ahead. -/
structure State.IdealIteration (s t : State) (k : Nat) : Prop where
  run : runSteps 6 s = .next t
  looping : t.Looping k
  inv : s.Inv → t.Inv
  ph : t.ph = .blink
  pc : t.pc = s.pc + 6
  now : t.now = advance s.now 100
  color : t.color = s.color
  digit : t.digit = s.digit
  draws : ∀ j, t.drawAhead j = s.drawAhead (j + 6)
  trace : t.trace = s.trace ++ [s.selectedFrame]
  blinkOn : t.blinkOn = if s.blinkDue then !s.blinkOn else s.blinkOn
  blinkT : t.blinkT = if s.blinkDue then s.now else s.blinkT
  statusOut : t.statusOut = t.blinkOn

theorem State.Looping.exists_idealIteration {s : State} {k : Nat} (h : s.Looping (k + 6)) (hp : s.ph = .blink)
    (hd : s.drawsAhead 6 idealDraw) : ∃ t, s.IdealIteration t k := by
  obtain ⟨s1, s2, s3, hf⟩ := h.exists_frameSteps hp
  obtain ⟨s4, s5, t, hq⟩ := hf.emit.looping.exists_pollSteps hf.ph3
  have hdraw3 : s3.draw = idealDraw := by rw [← State.drawAhead_zero, hf.draws, hd _ (by decide)]
  have hdraw4 : s4.draw = idealDraw := by rw [← State.drawAhead_zero, hq.inc.draws, hf.draws, hd _ (by decide)]
  have hinc : s3.pollPress .inc = false := State.pollPress_of_high (by rw [State.line_inc, hdraw3]; rfl)
  have hdec : s4.pollPress .dec = false := State.pollPress_of_high (by rw [State.line_dec, hdraw4]; rfl)
  have hnow : t.now = advance s.now 100 := by
    rw [hq.now, hf.now, advance_advance, State.stall_of_no_press hinc, State.stall_of_no_press hdec, hf.draws, hf.draws,
      hf.draws, hd 0, hd 1, hd 2, hd (0 + 3), hd (1 + 3), hd (2 + 3)]
    · rfl
    all_goals decide
  exact ⟨t, {
    run := (runSteps_add hf.run 3).trans hq.run
    looping := hq.idle.looping
    inv := fun hi => hq.inv (hf.inv hi)
    ph := hq.ph_end
    pc := by rw [hq.pc, hf.pc]
    now := hnow
    color := hq.color.trans hf.color
    digit := (hq.digit hinc hdec).trans hf.digit
    draws := fun j => by rw [hq.draws, hf.draws]
    trace := hq.trace.trans hf.trace
    blinkOn := hq.blinkOn.trans hf.blinkOn
    blinkT := hq.blinkT.trans hf.blinkT
    statusOut := by rw [hq.statusOut, hq.blinkOn, hf.statusOut] }⟩

/-- The registers at the start of iteration k after reset, under ideal timing with no press. From iteration 1 on the blinker
has toggled in each one, so its time is that of the iteration before. -/
structure State.StartsIdeal (s : State) (k : Nat) : Prop where
  ph : s.ph = .blink
  digit : s.digit = 0#4
  color : s.color = 0xFF0000#24
  now : s.now = BitVec.ofNat 32 (100 * k)
  trace : s.trace = List.replicate k (render 0 0xFF0000#24)
  blinkOn : s.blinkOn = decide ((k - 1) % 2 = 1)
  blinkT : s.blinkT = BitVec.ofNat 32 (100 * (k - 1))

theorem State.startsIdeal_fromReset (m : Stream) (ds : List EnvDraw) (n : Nat) (mode : DebounceMode) :
    (State.fromReset m ds n mode).StartsIdeal 0 := by
  constructor <;> rfl

theorem State.looping_fromReset {m : Stream} {ds : List EnvDraw} {n : Nat} {mode : DebounceMode} {k : Nat}
    (h : (State.fromReset m ds n mode).stepsAhead k) : (State.fromReset m ds n mode).Looping k :=
  ⟨Nat.zero_le 9, fun hr => Bool.noConfusion hr, rfl, h⟩

theorem State.StartsIdeal.selectedFrame {s : State} {k : Nat} (h : s.StartsIdeal k) :
    s.selectedFrame = render 0 0xFF0000#24 := by
  rw [State.selectedFrame, h.digit, h.color]
  rfl

theorem advance_ofNat (m n : Nat) : advance (BitVec.ofNat 32 m) n = BitVec.ofNat 32 (m + n) := by
  rw [advance, BitVec.ofNat_add]

/-- The blinker is due in every iteration but the first. -/
theorem State.StartsIdeal.blinkDue {s : State} {k : Nat} (h : s.StartsIdeal k) : s.blinkDue = decide (1 ≤ k) := by
  cases k with
  | zero =>
    rw [decide_eq_false (by decide), State.blinkDue_eq_false_iff, h.now, h.blinkT, elapsed_self]
    decide
  | succ k =>
    rw [decide_eq_true (by omega), State.blinkDue_iff, h.now, h.blinkT, Nat.add_sub_cancel, Nat.mul_succ,
      ← advance_ofNat, toNat_elapsed_advance]
    decide

/-- Iteration k ends at the start of iteration k + 1. -/
theorem State.IdealIteration.startsIdeal {s t : State} {j k : Nat} (h : s.IdealIteration t j) (hs : s.StartsIdeal k) :
    t.StartsIdeal (k + 1) := by
  refine ⟨h.ph, h.digit.trans hs.digit, h.color.trans hs.color, ?_, ?_, ?_, ?_⟩
  · rw [h.now, hs.now, advance_ofNat, Nat.mul_succ]
  · rw [h.trace, hs.trace, hs.selectedFrame, List.replicate_succ']
  · rw [h.blinkOn, hs.blinkDue, hs.blinkOn, Nat.add_sub_cancel]
    cases k with
    | zero => rfl
    | succ k =>
      rw [decide_eq_true (by omega), if_pos rfl, Nat.add_sub_cancel, ← decide_not]
      exact decide_eq_decide.mpr (by omega)
  · rw [h.blinkT, hs.blinkDue, hs.now, hs.blinkT, Nat.add_sub_cancel]
    cases k with
    | zero => rfl
    | succ k => simp

/-- k iterations lead from the start of iteration 0 to the start of iteration k. -/
theorem State.StartsIdeal.iterations {s : State} (hs : s.StartsIdeal 0) (k n : Nat) (h : s.Looping (6 * k + n))
    (hd : s.drawsAhead (6 * k + n) idealDraw) :
    ∃ t, runSteps (6 * k) s = .next t ∧ t.StartsIdeal k ∧ t.Looping n ∧ t.drawsAhead n idealDraw := by
  induction k generalizing n with
  | zero => exact ⟨s, rfl, hs, by simpa using h, by simpa using hd⟩
  | succ k ih =>
    have hn : 6 * (k + 1) + n = 6 * k + (n + 6) := by omega
    obtain ⟨t, hrun, hst, hlt, hdt⟩ := ih (n + 6) (hn ▸ h) (hn ▸ hd)
    obtain ⟨u, hu⟩ := hlt.exists_idealIteration hst.ph (State.drawsAhead_mono (by omega) hdt)
    exact ⟨u, (runSteps_add hrun 6).trans hu.run, hu.startsIdeal hst, hu.looping,
      fun j hj => (hu.draws j).trans (hdt _ (by omega))⟩

/-- Settles O45: the iteration from any state, and from reset the iterations by induction on their number. -/
theorem idealTimingTrace : Obligations.IdealTimingTrace := by
  refine ⟨fun s hi hr hp hs hd => ?_, fun k m ds n mode => ?_⟩
  · obtain ⟨t, ht⟩ := (hi.looping (k := 0 + 6) hr hs).exists_idealIteration hp hd
    refine ⟨t, ht.run, ht.inv hi, ht.looping.running, ht.ph, ht.pc, ht.now, ht.digit, ht.trace, ?_, ?_, ht.statusOut⟩
    · simp only [ht.blinkOn, State.blinkDue_iff]
    · simp only [ht.blinkT, State.blinkDue_iff]
  · intro s hs hd
    obtain ⟨t, hrun, hst, hlt, hdt⟩ :=
      (State.startsIdeal_fromReset m ds n mode).iterations k 6 (State.looping_fromReset hs) hd
    obtain ⟨u, hu⟩ := hlt.exists_idealIteration (k := 0) hst.ph hdt
    have hon : u.blinkOn = decide (k % 2 = 1) := (hu.startsIdeal hst).blinkOn
    exact ⟨t, u, hrun, hu.run, hst.ph, hst.now, hst.trace, by rw [hu.trace, hst.selectedFrame], hon,
      hu.statusOut.trans hon⟩

end Sys2Proof.Machine

/-! ## The family of 60_exceptions.md: the word of a fault, the causes of faults, and the stopped CORE -/

namespace Sys2Proof.Machine

/-! ### The word of a decoded command -/

theorem opcode_defined (i : Instr) : 1 ≤ i.opcode ∧ i.opcode < 12 := by
  cases i <;> simp [Instr.opcode]

/-- A word that spells a command has its opcode, and zeros in its reserved bits. -/
theorem fields_of_decode {w : Word} {i : Instr} (h : decode w = .ok i) :
    bits w 28 4 = i.opcode ∧ reservedField w = 0 :=
  (decode_eq_ok_opcode_iff (opcode_defined i).1 (opcode_defined i).2).mp ⟨i, h, rfl⟩

/-- A word that spells a command is its opcode and its operand bits. -/
theorem toNat_of_decode {w : Word} {i : Instr} (h : decode w = .ok i) :
    w.toNat = i.opcode * 2 ^ 28 + w.toNat % 2 ^ operandWidth i.opcode := by
  obtain ⟨hop, hz⟩ := fields_of_decode h
  have hlo := operandWidth_le i.opcode
  have hdiv := (div_eq_opcode_iff w i.opcode _ hlo).mpr ⟨hop, bits_of_reservedField hop hz⟩
  calc w.toNat
      = w.toNat / 2 ^ operandWidth i.opcode * 2 ^ operandWidth i.opcode + w.toNat % 2 ^ operandWidth i.opcode :=
        (Nat.div_add_mod' _ _).symm
    _ = i.opcode * 2 ^ 28 + w.toNat % 2 ^ operandWidth i.opcode := by
        rw [hdiv, Nat.mul_assoc, ← Nat.pow_add, Nat.sub_add_cancel hlo]

theorem number_ofNumber {n : Nat} (h : n < 2) : (Button.ofNumber n).number = n := by
  interval_cases n <;> rfl

/-- A command's word is the word that it was decoded from: each command has one word (30_encoding.md R72). -/
theorem encode_of_decode {w : Word} {i : Instr} (h : decode w = .ok i) : encode i = w := by
  obtain ⟨hop, hz⟩ := fields_of_decode h
  have hw := toNat_of_decode h
  apply BitVec.eq_of_toNat_eq
  rw [hw]
  cases i with
  | lookup d r =>
    obtain ⟨rfl, rfl⟩ := Instr.lookup.inj (Except.ok.inj (h.symm.trans (decode_lookup hop hz)))
    simp only [encode, BitVec.toNat_ofNat, bits, Instr.opcode, operandWidth]
    omega
  | render d c =>
    obtain ⟨rfl, rfl⟩ := Instr.render.inj (Except.ok.inj (h.symm.trans (decode_render hop)))
    simp only [encode, colorField, BitVec.toNat_ofNat, BitVec.toNat_setWidth, bits, Instr.opcode, operandWidth]
    omega
  | fbread n =>
    obtain rfl := Instr.fbread.inj (Except.ok.inj (h.symm.trans (decode_fbread hop hz)))
    simp only [encode, BitVec.toNat_ofNat, bits, Instr.opcode, operandWidth]
    omega
  | poll b =>
    obtain rfl := Instr.poll.inj (Except.ok.inj (h.symm.trans (decode_poll hop hz)))
    rw [encode, number_ofNumber (bits_lt w 0 1)]
    simp only [BitVec.toNat_ofNat, bits, Instr.opcode, operandWidth]
    omega
  | wait n =>
    obtain rfl := Instr.wait.inj (Except.ok.inj (h.symm.trans (decode_wait hop hz)))
    simp only [encode, BitVec.toNat_ofNat, bits, Instr.opcode, operandWidth]
    omega
  | _ => simp [encode, Instr.opcode, operandWidth, Nat.mod_one]

/-! ### The causes of a command's fault -/

/-- With a digit register of 0 to 9, a command's effect is RANGE_VIOLATION exactly when an operand is out of range. -/
theorem effectOf_eq_rangeViolation_iff {s : State} (hd : s.digit.toNat ≤ 9) (i : Instr) :
    effectOf i s = .error .rangeViolation ↔ outOfRange i = true := by
  constructor
  · intro h
    rcases effectOf_error h with ⟨-, ⟨d, r, rfl, hor⟩ | ⟨d, c, rfl, hgt⟩ | ⟨n, rfl, hgt⟩ | ⟨hgt, -⟩⟩ | ⟨hk, -⟩
    · simpa [outOfRange] using hor
    · simpa [outOfRange] using hgt
    · simpa [outOfRange] using hgt
    · omega
    · cases hk
  · intro h
    cases i with
    | lookup d r => exact lookupEffect_of_outOfRange (by simpa [outOfRange] using h) s
    | render d c => exact renderEffect_of_gt (by simpa [outOfRange] using h) c s
    | fbread n => exact fbreadEffect_of_gt (by simpa [outOfRange] using h) s
    | _ => cases h

/-- A command's effect is UNWRITTEN_READ exactly when its operand is in range and it reads an unwritten FrameBuffer. -/
theorem effectOf_eq_unwrittenRead_iff (s : State) (i : Instr) :
    effectOf i s = .error .unwrittenRead ↔ outOfRange i = false ∧ s.readsFb i = true ∧ s.fb = none := by
  constructor
  · intro h
    rcases effectOf_error h with ⟨hk, -⟩ | ⟨-, hf, ⟨n, rfl, hlt⟩ | rfl | ⟨rfl, hp⟩⟩
    · cases hk
    · exact ⟨decide_eq_false (by omega), rfl, hf⟩
    · exact ⟨rfl, rfl, hf⟩
    · exact ⟨rfl, decide_eq_true hp, hf⟩
  · rintro ⟨hrange, hreads, hf⟩
    cases i with
    | fbread n => exact fbreadEffect_of_none (Nat.lt_succ_of_le (Nat.le_of_not_lt (of_decide_eq_false hrange))) hf
    | emit => exact emitBuffer_of_none hf
    | step => exact stepEffect_of_none (of_decide_eq_true hreads) hf
    | _ => cases hreads

/-- Only the fetch raises ILLEGAL_COMMAND. -/
theorem effectOf_ne_illegalCommand (i : Instr) (s : State) : effectOf i s ≠ .error .illegalCommand := by
  intro h
  rcases effectOf_error h with ⟨hk, -⟩ | ⟨hk, -⟩ <;> cases hk

/-! ### A step's fault -/

/-- A step completes the decoded command and records no fault, or raises one with the word at `pc`: ILLEGAL_COMMAND where it
spells no command, else the fault of the command. -/
theorem step_fault_cases {s t : State} (h : step s = .next t) :
    (∃ e, decode s.commandWord = .error e ∧ t = s.raise .illegalCommand s.commandWord) ∨
    ∃ i, decode s.commandWord = .ok i ∧
      ((∃ e, effectOf i s = .ok e ∧ t.running ∧ t.faultWord = s.faultWord) ∨
        ∃ k, effectOf i s = .error k ∧ t = s.raise k s.commandWord) := by
  obtain ⟨hr, hill | ⟨i, hd, hx⟩⟩ := step_cases h
  · exact .inl hill
  · refine .inr ⟨i, hd, ?_⟩
    rcases exec_cases hx with ⟨e, he, rfl⟩ | ⟨k, hk, rfl⟩
    · have hsame := effectOf_sameControl he
      exact .inl ⟨e, he, hsame.fault.trans hr, hsame.faultWord⟩
    · exact .inr ⟨k, hk, by rw [encode_of_decode hd]⟩

/-- Settles O29: a step that raises a fault raises it in the state it began in, and a completed command records none. -/
theorem faultEntryWritesOnlyFaultRegisters : Obligations.FaultEntryWritesOnlyFaultRegisters := by
  intro s t h hn
  rcases step_fault_cases h with ⟨e, -, rfl⟩ | ⟨i, -, ⟨e, -, hrun, -⟩ | ⟨k, -, rfl⟩⟩
  · rfl
  · exact absurd hrun hn
  · rfl

theorem FaultKind.register_injective : Function.Injective FaultKind.register := by
  intro k k'
  cases k <;> cases k' <;> decide

/-- Where the word at `pc` spells a command, the fault that a step records is the fault of the command's effect. -/
theorem step_fault_iff {s t : State} {i : Instr} (h : step s = .next t) (hd : decode s.commandWord = .ok i) (k : FaultKind) :
    t.fault = k.register ↔ effectOf i s = .error k := by
  rcases step_fault_cases h with ⟨e, hd', -⟩ | ⟨i', hd', hi⟩
  · cases hd.symm.trans hd'
  · obtain rfl : i = i' := Except.ok.inj (hd.symm.trans hd')
    rcases hi with ⟨e, he, hrun, -⟩ | ⟨k', hk, rfl⟩
    · simp [hrun, he, (FaultKind.register_ne k).symm]
    · simp [hk, FaultKind.register_injective.eq_iff]

/-- A step that records no fault leaves the fault word. -/
theorem step_faultWord_of_running {s t : State} (h : step s = .next t) (hrun : t.running) : t.faultWord = s.faultWord := by
  rcases step_fault_cases h with ⟨e, -, rfl⟩ | ⟨i, -, ⟨e, -, -, hw⟩ | ⟨k, -, rfl⟩⟩
  · exact absurd hrun (s.raise_not_running _ _)
  · exact hw
  · exact absurd hrun (s.raise_not_running _ _)

/-- Settles O30: a word that spells no command is ILLEGAL_COMMAND, and a command's own fault is decided by its operand first
and by the FrameBuffer second. -/
theorem faultsHaveTheirCauses : Obligations.FaultsHaveTheirCauses := by
  intro s t hdigit h
  have hword (hn : ¬ t.running) : t.faultWord = s.commandWord :=
    congrArg State.faultWord (faultEntryWritesOnlyFaultRegisters s t h hn)
  cases hd : decode s.commandWord with
  | error e =>
    obtain rfl := Host.Outcome.next.inj ((step_illegal (step_cases h).1 hd).symm.trans h)
    exact ⟨by simp [FaultKind.register], by simp [FaultKind.register], by simp [FaultKind.register], hword,
      step_faultWord_of_running h⟩
  | ok i =>
    have hill : t.fault ≠ .illegalCommand := fun hf =>
      effectOf_ne_illegalCommand i s ((step_fault_iff h hd .illegalCommand).mp hf)
    have hrange : t.fault = .rangeViolation ↔ outOfRange i = true :=
      (step_fault_iff h hd .rangeViolation).trans (effectOf_eq_rangeViolation_iff hdigit i)
    have hread : t.fault = .unwrittenRead ↔ outOfRange i = false ∧ s.readsFb i = true ∧ s.fb = none :=
      (step_fault_iff h hd .unwrittenRead).trans (effectOf_eq_unwrittenRead_iff s i)
    exact ⟨by simp [hill], by simp [hrange], by simp [hread], hword, step_faultWord_of_running h⟩

/-! ### The stopped CORE -/

/-- A stopped CORE executes nothing. -/
theorem step_stopped {s : State} (h : s.fault ≠ .noFault) : step s = .fault (.stopped s.fault) := by
  rw [step, State.fetch_stopped h]

/-- Settles O31: the fetch of a stopped CORE answers no command, so no run of it takes a step. -/
theorem stoppedCoreExecutesNothing : Obligations.StoppedCoreExecutesNothing := by
  refine fun s h => ⟨step_stopped h, fun t ht => ?_, fun k => ?_⟩
  · cases (step_stopped h).symm.trans ht
  · simp only [runSteps, step_stopped h]

end Sys2Proof.Machine

/-! ## The family of 70_reset_and_hazards.md: power-on -/

namespace Sys2Proof.Machine

section

variable (s : State)

/-! ### The hardwired windows: the same in every state -/

@[simp] theorem State.btnWin_eq (b : Button) : s.btnWin b = 200#32 := rfl
@[simp] theorem State.blinkWin_eq : s.blinkWin = 100#32 := rfl

/-! ### powerOn: the CORE's own fields -/

@[simp] theorem State.powerOn_pc : s.powerOn.pc = 0 := rfl
@[simp] theorem State.powerOn_ph : s.powerOn.ph = .blink := rfl
@[simp] theorem State.powerOn_now : s.powerOn.now = 0#32 := rfl
@[simp] theorem State.powerOn_digit : s.powerOn.digit = 0#4 := rfl
@[simp] theorem State.powerOn_color : s.powerOn.color = 0xFF0000#24 := rfl
@[simp] theorem State.powerOn_fb : s.powerOn.fb = none := rfl
@[simp] theorem State.powerOn_btnInc : s.powerOn.btnInc = ⟨.idle, 0#32⟩ := rfl
@[simp] theorem State.powerOn_btnDec : s.powerOn.btnDec = ⟨.idle, 0#32⟩ := rfl
@[simp] theorem State.powerOn_blinkOn : s.powerOn.blinkOn = false := rfl
@[simp] theorem State.powerOn_blinkT : s.powerOn.blinkT = 0#32 := rfl
@[simp] theorem State.powerOn_statusOut : s.powerOn.statusOut = false := rfl
@[simp] theorem State.powerOn_res : s.powerOn.res = none := rfl
@[simp] theorem State.powerOn_fault : s.powerOn.fault = .noFault := rfl
@[simp] theorem State.powerOn_faultWord : s.powerOn.faultWord = 0#32 := rfl
@[simp] theorem State.powerOn_trace : s.powerOn.trace = [] := rfl

/-! ### powerOn: the valid bits -/

@[simp] theorem State.powerOn_fbValid : s.powerOn.fbValid = false := by
  rw [State.fbValid, State.powerOn_fb, Option.isSome_none]

@[simp] theorem State.powerOn_resValid : s.powerOn.resValid = false := by
  rw [State.resValid, State.powerOn_res, Option.isSome_none]

end

/-! ### The reset state -/

/-- The reset state is a fixed point of power-on: all that power-on keeps of a state is its environment and its mode. -/
@[simp] theorem State.powerOn_reset : State.reset.powerOn = State.reset := rfl

/-- Settles O50: power-on's fields one by one, the windows of every state, and the reset state as power-on's
fixed point. -/
theorem resetValues : Obligations.ResetValues := by
  refine ⟨fun s => ?registers, State.powerOn_reset.symm, rfl⟩
  case registers => simp

end Sys2Proof.Machine

/-! ## The statements across the families: the round trips of the encoding, the invariant and the main loop, who writes what,
and the host's views -/

namespace Sys2Proof.Machine

/-! ### The round trips of decoder and encoder (30_encoding.md R71 to R76, R80) -/

theorem lookup_wellFormed_iff {d r : Nat} : (Instr.lookup d r).WellFormed ↔ d ≤ 15 ∧ r ≤ 15 := by
  simp [Instr.WellFormed, Instr.wellFormed]

theorem render_wellFormed_iff {d : Nat} {c : Pixel} : (Instr.render d c).WellFormed ↔ d ≤ 15 := by
  simp [Instr.WellFormed, Instr.wellFormed]

theorem fbread_wellFormed_iff {n : Nat} : (Instr.fbread n).WellFormed ↔ n ≤ 31 := by
  simp [Instr.WellFormed, Instr.wellFormed]

theorem wait_wellFormed_iff {n : Nat} : (Instr.wait n).WellFormed ↔ n ≤ 65535 := by
  simp [Instr.WellFormed, Instr.wellFormed]

/-- The operand bits of a command's word: all of it below the opcode. -/
def operandBits : Instr → Nat
  | .lookup d r => r * 2 ^ 4 + d
  | .render d c => d * 2 ^ 24 + c.toNat
  | .fbread n => n
  | .poll b => b.number
  | .wait n => n
  | _ => 0

/-- The operands of a well-formed command stay below its reserved bits. -/
theorem operandBits_lt {i : Instr} (h : i.WellFormed) : operandBits i < 2 ^ operandWidth i.opcode := by
  cases i with
  | lookup d r =>
    obtain ⟨hd, hr⟩ := lookup_wellFormed_iff.mp h
    simp only [operandBits, Instr.opcode, operandWidth]
    omega
  | render d c =>
    have hd := render_wellFormed_iff.mp h
    have hc := c.isLt
    simp only [operandBits, Instr.opcode, operandWidth]
    omega
  | fbread n => exact Nat.lt_succ_of_le (fbread_wellFormed_iff.mp h)
  | poll b => cases b <;> decide
  | wait n => exact Nat.lt_succ_of_le (wait_wellFormed_iff.mp h)
  | _ => exact Nat.zero_lt_one

/-- The word of a well-formed command is its opcode above its operand bits. -/
theorem toNat_encode {i : Instr} (h : i.WellFormed) : (encode i).toNat = i.opcode * 2 ^ 28 + operandBits i := by
  have hlt : operandBits i < 2 ^ 28 :=
    (operandBits_lt h).trans_le (Nat.pow_le_pow_right (by decide) (operandWidth_le i.opcode))
  cases i <;> simp only [encode, operandBits, Instr.opcode, BitVec.toNat_ofNat] at hlt ⊢ <;> omega

/-- The word of a well-formed command has its opcode, and zeros in its reserved bits. -/
theorem fields_of_encode {i : Instr} (h : i.WellFormed) :
    bits (encode i) 28 4 = i.opcode ∧ reservedField (encode i) = 0 := by
  have hlo := operandWidth_le i.opcode
  have hsplit : i.opcode * 2 ^ 28 = i.opcode * 2 ^ (28 - operandWidth i.opcode) * 2 ^ operandWidth i.opcode := by
    rw [Nat.mul_assoc, ← Nat.pow_add, Nat.sub_add_cancel hlo]
  have hdiv : (encode i).toNat / 2 ^ operandWidth i.opcode = i.opcode * 2 ^ (28 - operandWidth i.opcode) := by
    rw [toNat_encode h, hsplit, Nat.add_comm, Nat.add_mul_div_right _ _ (Nat.two_pow_pos _),
      Nat.div_eq_of_lt (operandBits_lt h), Nat.zero_add]
  obtain ⟨hop, hz⟩ := (div_eq_opcode_iff (encode i) i.opcode _ hlo).mp hdiv
  exact ⟨hop, by rw [reservedField, hop, hz]⟩

/-- Settles O20: the word's opcode selects the command's row of the decoder, its reserved bits are zero, and each operand is
read back from its field. -/
theorem decodeOfEncode : Obligations.DecodeOfEncode := by
  intro i h
  obtain ⟨hop, hz⟩ := fields_of_encode h
  have hw := toNat_encode h
  cases i with
  | lookup d r =>
    obtain ⟨hd, hr⟩ := lookup_wellFormed_iff.mp h
    simp only [Instr.opcode, operandBits] at hw
    have hd' : bits (encode (.lookup d r)) 0 4 = d := by rw [bits, hw]; omega
    have hr' : bits (encode (.lookup d r)) 4 4 = r := by rw [bits, hw]; omega
    rw [decode_lookup hop hz, hd', hr']
  | render d c =>
    have hd := render_wellFormed_iff.mp h
    have hc := c.isLt
    simp only [Instr.opcode, operandBits] at hw
    have hd' : bits (encode (.render d c)) 24 4 = d := by rw [bits, hw]; omega
    have hc' : colorField (encode (.render d c)) = c := by
      apply BitVec.eq_of_toNat_eq
      rw [colorField, BitVec.toNat_setWidth, hw]
      omega
    rw [decode_render hop, hd', hc']
  | fbread n =>
    have hn := fbread_wellFormed_iff.mp h
    have hn' : bits (encode (.fbread n)) 0 5 = n := by
      simp only [bits, hw, Instr.opcode, operandBits]
      omega
    rw [decode_fbread hop hz, hn']
  | poll b =>
    rw [decode_poll hop hz]
    cases b <;> rfl
  | wait n =>
    have hn := wait_wellFormed_iff.mp h
    have hn' : bits (encode (.wait n)) 0 16 = n := by
      simp only [bits, hw, Instr.opcode, operandBits]
      omega
    rw [decode_wait hop hz, hn']
  | renders => exact decode_renders hop hz
  | emit => exact decode_emit hop hz
  | blink => exact decode_blink hop hz
  | selinc => exact decode_selinc hop hz
  | seldec => exact decode_seldec hop hz
  | step => exact decode_step hop hz

/-- A decoded command's operands fit their fields, because each is read from its field. -/
theorem wellFormed_of_decode {w : Word} {i : Instr} (h : decode w = .ok i) : i.WellFormed := by
  obtain ⟨hop, hz⟩ := fields_of_decode h
  cases i with
  | lookup d r =>
    obtain ⟨rfl, rfl⟩ := Instr.lookup.inj (Except.ok.inj (h.symm.trans (decode_lookup hop hz)))
    exact lookup_wellFormed_iff.mpr ⟨Nat.le_of_lt_succ (bits_lt w 0 4), Nat.le_of_lt_succ (bits_lt w 4 4)⟩
  | render d c =>
    obtain ⟨rfl, -⟩ := Instr.render.inj (Except.ok.inj (h.symm.trans (decode_render hop)))
    exact render_wellFormed_iff.mpr (Nat.le_of_lt_succ (bits_lt w 24 4))
  | fbread n =>
    obtain rfl := Instr.fbread.inj (Except.ok.inj (h.symm.trans (decode_fbread hop hz)))
    exact fbread_wellFormed_iff.mpr (Nat.le_of_lt_succ (bits_lt w 0 5))
  | wait n =>
    obtain rfl := Instr.wait.inj (Except.ok.inj (h.symm.trans (decode_wait hop hz)))
    exact wait_wellFormed_iff.mpr (Nat.le_of_lt_succ (bits_lt w 0 16))
  | _ => rfl

/-- Settles O21: the operands of a decoded command are fields of the word, and the word is put together from them again. -/
theorem encodeOfDecode : Obligations.EncodeOfDecode :=
  fun _ _ h => ⟨wellFormed_of_decode h, encode_of_decode h⟩

/-! ### The invariant (10_state.md R26, R27, R34, R36, R41) -/

theorem State.Inv.writeRes {s : State} (h : s.Inv) (v : BitVec 24) : (s.writeRes v).Inv := { h with }

theorem State.Inv.writeDigit {s : State} (h : s.Inv) {d : BitVec 4} (hd : d.toNat ≤ 9) : (s.writeDigit d).Inv :=
  { h with digit_range := hd }

/-- A fault keeps the invariant: the word it records is recorded with it. -/
theorem State.Inv.raise {s : State} (h : s.Inv) (k : FaultKind) (w : Word) : (s.raise k w).Inv :=
  { h with no_stray_word := fun hn => absurd hn (s.raise_not_running k w) }

/-- The effect of every command keeps the invariant. -/
theorem effectOf_inv {i : Instr} {s : State} {e : Effect} (h : effectOf i s = .ok e) (hi : s.Inv) : e.after.Inv := by
  rcases effectOf_ok h with ⟨v, rfl, -⟩ | ⟨f, rfl, -⟩ | ⟨f, -, rfl, -⟩ | ⟨rfl, -⟩ | ⟨b, rfl, -⟩ | ⟨d, hd, rfl, -⟩ |
    ⟨n, rfl, -⟩ | ⟨-, hs⟩
  · exact hi.writeRes v
  · exact hi.writeFb f
  · exact hi.emitFrame f
  · exact hi.blinkTask
  · exact (hi.pollTask b).writeRes _
  · exact hi.writeDigit hd
  · exact hi
  · exact hs.inv hi

/-- Settles O48: the reset state is in a phase before the render, and its other registers are as the invariant asks. -/
theorem resetMeetsInvariant : Obligations.ResetMeetsInvariant where
  digit_range := by decide
  color_fixed := rfl
  status_follows := rfl
  no_stray_word := fun _ => rfl
  rendered := fun h => by cases h
  stream_wf := Stream.wf_reset

/-- Settles O49: a step completes an effect, which keeps the invariant, or raises a fault, which keeps it too. -/
theorem stepKeepsInvariant : Obligations.StepKeepsInvariant := by
  intro s t hi h
  rcases step_completes_or_raises h with ⟨i, e, -, he, rfl⟩ | ⟨k, w, rfl⟩
  · exact (effectOf_inv he hi).complete e.cost
  · exact hi.raise k w

/-! ### The main loop (43_blink_sched.md R160) -/

/-- k STEPs ahead run, each from the state that the one before it left. -/
theorem State.Looping.exists_run {s : State} (k : Nat) (h : s.Looping k) :
    ∃ t, runSteps k s = .next t ∧ t.running ∧ (s.Inv → t.Inv) ∧ t.pc = s.pc + k ∧
      t.ph.code.toNat = (s.ph.code.toNat + k) % 6 := by
  induction k generalizing s with
  | zero =>
    have hph := (Phase.code_next s.ph).1
    exact ⟨s, rfl, h.running, id, rfl, (Nat.mod_eq_of_lt (by omega)).symm⟩
  | succ k ih =>
    obtain ⟨u, hu⟩ := h.exists_loopStep
    obtain ⟨t, hrun, hrunning, hinv, hpc, hph⟩ := ih hu.looping
    refine ⟨t, (runSteps_succ hu.next k).trans hrun, hrunning, fun hi => hinv (hu.inv hi), ?_, ?_⟩
    · rw [hpc, hu.pc]
      omega
    · rw [hph, hu.ph, (Phase.code_next s.ph).2]
      omega

/-- Settles O47: the invariant keeps each STEP ahead from raising a fault, and the STEPs follow one another by induction on
their number. -/
theorem normalOperationNeverFaults : Obligations.NormalOperationNeverFaults := by
  intro k s hi hr hs
  obtain ⟨t, hrun, hrunning, hinv, hpc, hph⟩ := (hi.looping hr hs).exists_run k
  exact ⟨t, hrun, hrunning, hinv hi, hpc, hph⟩

/-- Settles O46: the frame's phases of the first iteration, from the registers that reset leaves. -/
theorem firstFrameIsDigitZeroInRed : Obligations.FirstFrameIsDigitZeroInRed := by
  intro m ds n mode s hs
  have hstart := State.startsIdeal_fromReset m ds n mode
  obtain ⟨s1, s2, s3, hf⟩ := (State.looping_fromReset hs).exists_frameSteps (k := 0) hstart.ph
  refine ⟨s2, s3, hf.run_two, hf.trace2, hf.emit.next, ?_⟩
  rw [hf.trace, hstart.trace, hstart.selectedFrame]
  rfl

/-! ### The time of a poll (42_debounce_select.md R134, R136) -/

theorem State.exists_nextCommand_of_polls {s : State} {b : Button} (h : s.polls b = true) :
    ∃ i, s.nextCommand = some i ∧ (i = .poll b ∨ (i = .step ∧ s.ph = pollPhase b)) := by
  cases hc : s.nextCommand with
  | none => simp [State.polls, hc] at h
  | some i => exact ⟨i, rfl, (s.pollsWith_iff b i).mp ((State.polls_of_nextCommand hc b).symm.trans h)⟩

/-- A command that polls a button costs that poll's stall. -/
theorem State.timeCost_of_polls {s : State} {b : Button} (h : s.polls b = true) : s.timeCost = s.stall b := by
  obtain ⟨i, hc, rfl | ⟨rfl, hp⟩⟩ := State.exists_nextCommand_of_polls h
  · exact State.timeCost_of_nextCommand hc
  · rw [State.timeCost_of_nextCommand hc, State.costOf, State.taskCost, hp]
    cases b <;> rfl

/-- A poll takes its stall and its draw δ. -/
theorem step_now_of_polls {s t : State} {b : Button} (h : step s = .next t) (hp : s.polls b = true) :
    t.now = advance s.now (s.stall b + s.delta) := by
  obtain ⟨u, hu, hrun, -, -⟩ := step_of_polls hp
  obtain rfl := Host.Outcome.next.inj (h.symm.trans hu)
  rw [step_now h hrun, State.timeSpent, State.timeCost_of_polls hp]

/-- Settles O38: the stall is DEBOUNCE_MS for an accepted press in BLOCKING mode and 0 otherwise. -/
theorem pressStallsOnlyInBlockingMode : Obligations.PressStallsOnlyInBlockingMode := by
  intro s t b hp h
  have hnow := step_now_of_polls h hp
  refine ⟨fun ha hm => ?_, fun ha hm => ?_, fun ha => ?_⟩
  · rw [hnow, State.stall, if_pos ⟨ha, hm⟩, advance]
  · rw [hnow, State.stall, if_neg (by simp [hm]), Nat.zero_add, advance]
  · rw [hnow, State.stall, if_neg (by simp [ha]), Nat.zero_add, advance]

/-! ### The blinker's toggles (43_blink_sched.md R150 to R152) -/

/-- The commands that run the blinker. -/
theorem State.blinksWith_iff (s : State) (i : Instr) :
    s.blinksWith i = true ↔ i = .blink ∨ (i = .step ∧ s.ph = .blink) := by
  cases i <;> simp [State.blinksWith]

/-- A command that raises no fault runs the blinker's task, or leaves the blinker and the status output alone. -/
theorem effectOf_blinker {i : Instr} {s : State} {e : Effect} (h : effectOf i s = .ok e) :
    (s.blinksWith i = true ∧ e.after.blinkOn = (blinkTask s).blinkOn ∧ e.after.blinkT = (blinkTask s).blinkT) ∨
    (s.blinksWith i = false ∧ e.after.blinkOn = s.blinkOn ∧ e.after.blinkT = s.blinkT ∧
      e.after.statusOut = s.statusOut) := by
  rcases effectOf_ok h with ⟨v, rfl, hi⟩ | ⟨f, rfl, hi⟩ | ⟨f, -, rfl, rfl⟩ | ⟨rfl, rfl⟩ | ⟨b, rfl, rfl⟩ |
    ⟨d, -, rfl, hi⟩ | ⟨n, rfl, rfl⟩ | ⟨rfl, hs⟩
  · exact .inr ⟨by rcases hi with ⟨d, r, rfl⟩ | ⟨n, rfl⟩ <;> rfl, rfl, rfl, rfl⟩
  · exact .inr ⟨by rcases hi with ⟨d, c, rfl⟩ | rfl <;> rfl, rfl, rfl, rfl⟩
  · exact .inr ⟨rfl, rfl, rfl, rfl⟩
  · exact .inl ⟨rfl, rfl, rfl⟩
  · exact .inr ⟨rfl, pollTask_blinkOn b s, pollTask_blinkT b s, pollTask_statusOut b s⟩
  · exact .inr ⟨by rcases hi with rfl | rfl <;> rfl, rfl, rfl, rfl⟩
  · exact .inr ⟨rfl, rfl, rfl, rfl⟩
  · rcases hs.blinker with ⟨hp, ht⟩ | ⟨hp, hrest⟩
    · exact .inl ⟨decide_eq_true hp, by rw [ht]; rfl, by rw [ht]; rfl⟩
    · exact .inr ⟨decide_eq_false hp, hrest⟩

theorem State.toggles_of_nextCommand {s : State} {i : Instr} (h : s.nextCommand = some i) :
    s.toggles = (s.blinksWith i && s.blinkDue) := by
  rw [Bool.eq_iff_iff, Bool.and_eq_true, State.blinkDue_iff]
  simp [State.toggles, h]

/-- A step toggles when its command runs the blinker and the blinker is due. -/
theorem State.toggles_iff (s : State) :
    s.toggles = true ↔ (∃ i, s.nextCommand = some i ∧ s.blinksWith i = true) ∧ s.blinkDue = true := by
  cases hc : s.nextCommand with
  | none => simp [State.toggles, hc]
  | some i => simp [State.toggles_of_nextCommand hc]

theorem elapsed_of_toggles {s : State} (h : s.toggles = true) : Config.blinkMs ≤ (elapsed s.now s.blinkT).toNat :=
  s.blinkDue_iff.mp (s.toggles_iff.mp h).2

/-- A command that runs the blinker raises no fault. -/
theorem exists_effectOf_of_blinksWith {i : Instr} {s : State} (h : s.blinksWith i = true) :
    ∃ e, effectOf i s = .ok e := by
  obtain rfl | ⟨rfl, hp⟩ := (s.blinksWith_iff i).mp h
  · exact ⟨_, rfl⟩
  · exact ⟨⟨(blinkTask s).nextPhase, 0⟩, by simp [effectOf, stepEffect, phaseTask, hp]⟩

theorem step_running_of_toggles {s t : State} (h : step s = .next t) (ht : s.toggles = true) : t.running := by
  obtain ⟨⟨i, hc, hb⟩, -⟩ := s.toggles_iff.mp ht
  obtain ⟨e, he⟩ := exists_effectOf_of_blinksWith hb
  rw [step_of_nextCommand hc, exec_of_ok he] at h
  obtain rfl := Host.Outcome.next.inj h
  exact (effectOf_sameControl he).fault.trans ((s.nextCommand_eq_some_iff i).mp hc).1

/-- A step that toggles inverts the flag and records the time, and every other step leaves both. -/
theorem step_blinker {s t : State} (h : step s = .next t) :
    t.blinkOn = (if s.toggles = true then !s.blinkOn else s.blinkOn) ∧
    t.blinkT = if s.toggles = true then s.now else s.blinkT := by
  rcases step_completes_or_raises h with ⟨i, e, hc, he, rfl⟩ | ⟨k, w, rfl⟩
  · rw [State.toggles_of_nextCommand hc]
    rcases effectOf_blinker he with ⟨hb, hon, hT⟩ | ⟨hb, hon, hT, -⟩
    · simp [hb, hon, hT, blinkTask_blinkOn, blinkTask_blinkT]
    · simp [hb, hon, hT]
  · have hquiet : s.toggles = false :=
      Bool.eq_false_of_not_eq_true fun ht => s.raise_not_running k w (step_running_of_toggles h ht)
    simp [hquiet]

theorem step_blinkT_of_toggles {s t : State} (h : step s = .next t) (ht : s.toggles = true) : t.blinkT = s.now :=
  (step_blinker h).2.trans (if_pos ht)

theorem step_blinkT_of_not_toggles {s t : State} (h : step s = .next t) (ht : s.toggles = false) :
    t.blinkT = s.blinkT :=
  (step_blinker h).2.trans (if_neg (by simp [ht]))

theorem blinkT_of_reachesUntoggled {s t : State} (h : ReachesUntoggled s t) : t.blinkT = s.blinkT := by
  induction h with
  | refl => rfl
  | tail _ hquiet hstep _ ih => exact (step_blinkT_of_not_toggles hstep hquiet).trans ih

/-- From n ms of true time after a toggle at t0, with none since, T ms further on: the time since that toggle is the interval
or more, or it is still the last one. -/
theorem blinkT_of_reaches {s t : State} {t0 : Time} {n T : Nat} (h : Reaches s T t) (hnow : s.now = advance t0 n)
    (hT : s.blinkT = t0) : t.now = advance t0 (n + T) ∧ (Config.blinkMs ≤ n + T ∨ t.blinkT = t0) := by
  induction h with
  | refl => exact ⟨hnow, .inr hT⟩
  | @tail T t u _ hstep hrun ih =>
    obtain ⟨hnow', hsince⟩ := ih
    refine ⟨by rw [step_now hstep hrun, hnow', advance_advance, Nat.add_assoc], ?_⟩
    by_cases hlt : n + T < Config.blinkMs
    · have hT' := hsince.resolve_left (by omega)
      have hin : (elapsed t.now t.blinkT).toNat < Config.blinkMs := by
        rw [hT', hnow', toNat_elapsed_advance]
        exact (Nat.mod_le _ _).trans_lt hlt
      have hquiet : t.toggles = false :=
        Bool.eq_false_of_not_eq_true fun ht => (elapsed_of_toggles ht).not_gt hin
      exact .inr ((step_blinkT_of_not_toggles hstep hquiet).trans hT')
    · exact .inl (by omega)

/-- Settles O41: until the next toggle `blink_t` is the time of the last one, and with others between the true gap is the
interval or more already. -/
theorem togglesKeepTheIntervalApart : Obligations.TogglesKeepTheIntervalApart := by
  refine ⟨fun s t h => (step_blinker h).1, fun s1 s2 s3 h1 h12 h23 h3 => ?_, fun s1 s2 s3 T h1 h12 h23 h3 hT => ?_⟩
  · have hblinkT : s3.blinkT = s1.now := (blinkT_of_reachesUntoggled h23).trans (step_blinkT_of_toggles h12 h1)
    exact ⟨hblinkT, hblinkT ▸ elapsed_of_toggles h3⟩
  · obtain ⟨hnow, hsince⟩ :=
      blinkT_of_reaches h23 (step_now h12 (step_running_of_toggles h12 h1)) (step_blinkT_of_toggles h12 h1)
    obtain hlong | hlast := hsince
    · rwa [hnow, toNat_elapsed_advance, Nat.mod_eq_of_lt hT]
    · exact hlast ▸ elapsed_of_toggles h3

/-! ### Who writes what (10_state.md R22) -/

@[simp] theorem blinkTask_res (s : State) : (blinkTask s).res = s.res := by
  rcases blinkTask_cases s with ⟨-, h⟩ | ⟨-, h⟩ <;> simp [h]

theorem StepDoes.digit {s : State} {e : Effect} (h : StepDoes s e) :
    e.after.digit = s.digit ∨ s.ph = .pollInc ∨ s.ph = .pollDec := by
  by_cases hp : s.ph = .pollInc ∨ s.ph = .pollDec
  · exact .inr hp
  · refine .inl (h.digit_of_no_press fun b hb => absurd ?_ hp)
    cases b
    · exact .inl hb
    · exact .inr hb

/-- STEP leaves `res`, whichever task it runs. -/
theorem StepDoes.res {s : State} {e : Effect} (h : StepDoes s e) : e.after.res = s.res := by
  rcases h with ⟨-, rfl⟩ | ⟨-, -, rfl⟩ | ⟨-, f, -, rfl⟩ | ⟨-, rfl⟩ | ⟨-, rfl⟩ | ⟨-, rfl⟩ <;> simp

/-- The writers of `digit`. -/
theorem effectOf_digit {i : Instr} {s : State} {e : Effect} (h : effectOf i s = .ok e) :
    e.after.digit = s.digit ∨ (∃ b, i = .poll b) ∨ i = .selinc ∨ i = .seldec ∨
      (i = .step ∧ (s.ph = .pollInc ∨ s.ph = .pollDec)) := by
  rcases effectOf_ok h with ⟨v, rfl, -⟩ | ⟨f, rfl, -⟩ | ⟨f, -, rfl, -⟩ | ⟨rfl, -⟩ | ⟨b, -, hi⟩ | ⟨d, -, -, hi⟩ |
    ⟨n, rfl, -⟩ | ⟨hi, hs⟩
  case inr.inr.inr.inr.inl => exact .inr (.inl ⟨b, hi⟩)
  case inr.inr.inr.inr.inr.inl => rcases hi with hi | hi <;> simp [hi]
  case inr.inr.inr.inr.inr.inr.inr =>
    rcases hs.digit with hd | hp
    · exact .inl hd
    · simp [hi, hp]
  all_goals exact .inl (by simp)

/-- The writers of the FrameBuffer, which leave it written. -/
theorem effectOf_fb {i : Instr} {s : State} {e : Effect} (h : effectOf i s = .ok e) :
    e.after.fb = s.fb ∨
    (e.after.fbValid = true ∧ ((∃ d c, i = .render d c) ∨ i = .renders ∨ (i = .step ∧ s.ph = .render))) := by
  rcases effectOf_ok h with ⟨v, rfl, -⟩ | ⟨f, rfl, hi⟩ | ⟨f, -, rfl, -⟩ | ⟨rfl, -⟩ | ⟨b, rfl, -⟩ | ⟨d, -, rfl, -⟩ |
    ⟨n, rfl, -⟩ | ⟨hi, hs⟩
  case inr.inl => exact .inr ⟨rfl, by rcases hi with hi | hi <;> simp [hi]⟩
  case inr.inr.inr.inr.inl => exact .inl (pollTask_fb b s)
  case inr.inr.inr.inr.inr.inr.inr =>
    by_cases hp : s.ph = .render
    · exact .inr ⟨by simp [State.fbValid, hs.fb, hp], by simp [hi, hp]⟩
    · exact .inl (by simp [hs.fb, hp])
  all_goals exact .inl (by simp)

/-- The writers of `res`. -/
theorem effectOf_res {i : Instr} {s : State} {e : Effect} (h : effectOf i s = .ok e) :
    e.after.res = s.res ∨ (∃ d r, i = .lookup d r) ∨ (∃ n, i = .fbread n) ∨ ∃ b, i = .poll b := by
  rcases effectOf_ok h with ⟨v, -, hi⟩ | ⟨f, rfl, -⟩ | ⟨f, -, rfl, -⟩ | ⟨rfl, -⟩ | ⟨b, -, hi⟩ | ⟨d, -, rfl, -⟩ |
    ⟨n, rfl, -⟩ | ⟨-, hs⟩
  case inl => rcases hi with hi | hi <;> simp [hi]
  case inr.inr.inr.inr.inl => exact .inr (.inr (.inr ⟨b, hi⟩))
  case inr.inr.inr.inr.inr.inr.inr => exact .inl hs.res
  all_goals exact .inl (by simp)

/-- Settles O33: a fault leaves every register of the list, and a completed command's effect leaves those that the command is
no writer of. -/
theorem registersChangeOnlyByTheirWriters : Obligations.RegistersChangeOnlyByTheirWriters := by
  intro i s t h
  have hph : t.ph ≠ s.ph → i = .step := fun hne => by_contra fun hi => hne (exec_ph hi h)
  rcases exec_cases h with ⟨e, he, rfl⟩ | ⟨k, -, rfl⟩
  · have hsame := effectOf_sameControl he
    have hbtn (b : Button) (hne : e.after.btn b ≠ s.btn b) : i = .poll b ∨ (i = .step ∧ s.ph = pollPhase b) :=
      (s.pollsWith_iff b i).mp (by_contra fun hp => hne (effectOf_btn he (Bool.eq_false_of_not_eq_true hp)))
    refine ⟨hph, (effectOf_digit he).resolve_left, hsame.color, fun hne => ((effectOf_fb he).resolve_left hne).2,
      fun hv => ?valid, hbtn .inc, hbtn .dec, fun hne => ?blinker, (effectOf_res he).resolve_left, fun hne => ?trace,
      hsame.stream, hsame.debounceMode⟩
    case valid =>
      rcases effectOf_fb he with hfb | ⟨hfb, -⟩
      · exact (congrArg Option.isSome hfb).trans hv
      · exact hfb
    case blinker =>
      rcases effectOf_blinker he with ⟨hb, -⟩ | ⟨-, hon, hT, hout⟩
      · exact (s.blinksWith_iff i).mp hb
      · simp [hon, hT, hout] at hne
    case trace =>
      rcases effectOf_trace he with ⟨hem, -⟩ | ⟨-, htr⟩
      · exact hem
      · exact absurd htr hne
  · exact ⟨hph, by simp [State.fbValid]⟩

/-! ### The other button (42_debounce_select.md R137) -/

/-- The other button's registers and the draws ahead changed, in a state about to poll button b. -/
def State.withOther (s : State) (b : Button) (r : ButtonRegs) (ds : List EnvDraw) : State :=
  match b with
  | .inc => { s with btnDec := r, script := ds }
  | .dec => { s with btnInc := r, script := ds }

@[simp] theorem State.pollIdle_withOther (s : State) (b : Button) (r : ButtonRegs) (ds : List EnvDraw) :
    (s.withOther b r ds).pollIdle b = s.pollIdle b := by cases b <;> rfl

/-- A poll samples its own line and not the other. -/
theorem State.pollPress_withOther {s : State} {b : Button} {r : ButtonRegs} {ds : List EnvDraw}
    (hl : (s.withOther b r ds).line b = s.line b) : (s.withOther b r ds).pollPress b = s.pollPress b := by
  simp only [State.pollPress, State.sample, State.pollIdle_withOther, hl]

/-- A poll's effect is the same whatever the other button holds, and leaves it. -/
theorem pollEffect_withOther {s : State} {b : Button} {r : ButtonRegs} {ds : List EnvDraw}
    (hl : (s.withOther b r ds).line b = s.line b) :
    pollEffect b (s.withOther b r ds) = ⟨(pollEffect b s).after.withOther b r ds, (pollEffect b s).cost⟩ := by
  simp only [pollEffect, pollTask, pollCost, State.pollPress_withOther hl, State.pollIdle_withOther]
  cases s.pollPress b <;> cases b <;> rfl

/-- The end of a command reads of the draw no more than its δ. -/
theorem State.complete_withOther {s : State} {d d' : EnvDraw} {ds : List EnvDraw} (hs : s.script = d :: ds)
    (hd : d'.delta = d.delta) (b : Button) (r : ButtonRegs) (cost : Nat) :
    (s.withOther b r (d' :: ds)).complete cost = (s.complete cost).withOther b r ds := by
  cases b <;> simp [State.complete, State.withOther, State.delta, State.draw, hs, hd]

/-- A POLL of one button commutes with a change of the other button and its line. -/
theorem exec_poll_withOther {s t : State} {b : Button} {d d' : EnvDraw} {ds : List EnvDraw} (hs : s.script = d :: ds)
    (hd : d'.delta = d.delta) {r : ButtonRegs} (hl : (s.withOther b r (d' :: ds)).line b = s.line b)
    (h : exec (.poll b) s = .next t) :
    exec (.poll b) (s.withOther b r (d' :: ds)) = .next (t.withOther b r t.script) := by
  have hscript : (pollEffect b s).after.script = d :: ds := (pollTask_sameControl b s).script.trans hs
  obtain rfl := Host.Outcome.next.inj ((exec_of_ok (i := .poll b) rfl).symm.trans h)
  rw [exec_of_ok (i := .poll b) rfl, pollEffect_withOther hl, State.complete_withOther hscript hd, State.complete_script,
    hscript, List.tail_cons]

/-- Settles O39: for each button, its poll commutes with the change of the other. -/
theorem buttonsAreIndependent : Obligations.ButtonsAreIndependent := by
  intro s t r d ds l hs
  have hinc : s.line .inc = d.btnIncN := congrArg EnvDraw.btnIncN (State.draw_cons s hs)
  have hdec : s.line .dec = d.btnDecN := congrArg EnvDraw.btnDecN (State.draw_cons s hs)
  exact ⟨exec_poll_withOther (b := .inc) (d' := { d with btnDecN := l }) hs rfl hinc.symm,
    exec_poll_withOther (b := .dec) (d' := { d with btnIncN := l }) hs rfl hdec.symm⟩

/-! ### The wire (41_render.md R119) -/

/-- Where every element becomes n, element i's are n i to n i + n - 1. -/
theorem getElem?_flatMap_of_length {α β : Type} {f : α → List β} {n : Nat} (hf : ∀ a, (f a).length = n) (l : List α)
    (i : Nat) {j : Nat} (hj : j < n) : (l.flatMap f)[n * i + j]? = l[i]?.bind fun a => (f a)[j]? := by
  induction l generalizing i with
  | nil => simp
  | cons a l ih =>
    rw [List.flatMap_cons]
    cases i with
    | zero => rw [List.getElem?_append_left (by rw [hf]; omega)]; simp
    | succ i =>
      rw [Nat.mul_succ, List.getElem?_append_right (by rw [hf]; omega), hf, List.getElem?_cons_succ, ← ih]
      congr 1
      omega

theorem length_pixelBytes (p : Pixel) : (pixelBytes p).length = 3 := rfl

theorem length_wireBytes (f : Frame) : (wireBytes f).length = 75 := by
  simp [wireBytes, List.length_flatMap, length_pixelBytes]

/-- Byte 3i + j on the wire is byte j of pixel i. -/
theorem getElem?_wireBytes (f : Frame) (i : Fin 25) {j : Nat} (hj : j < 3) :
    (wireBytes f)[3 * i.val + j]? = (pixelBytes f[i])[j]? := by
  rw [wireBytes, getElem?_flatMap_of_length length_pixelBytes _ _ hj]
  simp

/-- Settles O19: three bytes for each pixel, in the order of `pixelBytes`. -/
theorem wireOrderIsGreenRedBlue : Obligations.WireOrderIsGreenRedBlue :=
  fun f i => ⟨length_wireBytes f, getElem?_wireBytes f i (j := 0) (by decide), getElem?_wireBytes f i (j := 1) (by decide),
    getElem?_wireBytes f i (j := 2) (by decide)⟩

/-! ### Single commands -/

/-- STEP in phase 1 takes the fault that RENDERS takes. -/
theorem stepEffect_of_bad_digit {s : State} (hp : s.ph = .render) (h : 9 < s.digit.toNat) :
    stepEffect s = .error .rangeViolation := by
  simp [stepEffect, phaseTask, hp, renderSelection_of_gt h]

/-- Settles O12: the digit register is no digit of the ROM, so the render is a fault, in STEP too. -/
theorem renderOfBadDigitFaults : Obligations.RenderOfBadDigitFaults :=
  fun _ hd => ⟨exec_of_error (i := .renders) (renderSelection_of_gt hd),
    fun hp => exec_of_error (i := .step) (stepEffect_of_bad_digit hp hd)⟩

/-- Settles O13: every command is its effect, concluded. -/
theorem execAlwaysAnswersNext : Obligations.ExecAlwaysAnswersNext := by
  intro i s
  rw [exec_eq_conclude]
  exact conclude_next i s (effectOf i s)

/-- Settles O16: quotient and remainder of the address by 5 give back digit and row. -/
theorem romReadsMasks : Obligations.RomReadsMasks :=
  ⟨fun d r => ⟨rfl, romRead_romAddress d r⟩, rfl, rfl, rfl, rfl, rfl⟩

/-- Settles O27: the fetch answers the decoded command, and the step adds nothing. -/
theorem stepRunsDecodedCommand : Obligations.StepRunsDecodedCommand :=
  fun _ _ hr hd => step_of_nextCommand (State.nextCommand_of_decode hr hd)

/-! ### Words and lines of the spec -/

/-- Settles O25: eleven of the words are the words of well-formed commands, and two are refused, the one for its bit 8 and the
other for its opcode. -/
theorem spelledWordsDecode : Obligations.SpelledWordsDecode :=
  ⟨decodeOfEncode (.lookup 3 1) rfl, decodeOfEncode (.render 3 0x00FF00#24) rfl, decodeOfEncode .renders rfl,
    decodeOfEncode (.fbread 24) rfl, decodeOfEncode .emit rfl, decodeOfEncode .blink rfl, decodeOfEncode (.poll .dec) rfl,
    decodeOfEncode .selinc rfl, decodeOfEncode .seldec rfl, decodeOfEncode (.wait 100) rfl, decodeOfEncode .step rfl,
    (decode_eq_reservedBits_iff _).mpr (by decide), (decode_eq_reservedOpcode_iff _).mpr (.inr (by decide))⟩

/-- Settles O26: the assembler run on each line. -/
theorem assemblerSpellsWords : Obligations.AssemblerSpellsWords := by
  unfold Obligations.AssemblerSpellsWords
  decide

/-! ### The register view (10_state.md R38) -/

/-- A pixel's number answers the pixel, once the FrameBuffer is written. -/
theorem State.view_pixel_eq (s : State) (i : Fin 25) :
    s.view (0x20 + i.val) = s.fb.map fun f => f[i].setWidth 32 := by
  rw [s.view_pixel (by omega), State.viewPixel]
  cases s.fb <;> simp [inView]

/-- A number outside the table answers no value. -/
theorem State.view_unlisted (s : State) {n : Nat} (hn : (0x11 < n ∧ n < 0x20) ∨ 0x38 < n) : s.view n = none := by
  have hlow : 0x11 < n := by omega
  have hpixel : ¬ (0x20 ≤ n ∧ n ≤ 0x38) := by omega
  unfold State.view
  split
  case h_19 => exact if_neg hpixel
  all_goals exact absurd hlow (by decide)

/-- A single bit in the view is 1 or 0. -/
theorem inView_ofBool (b : Bool) : inView (BitVec.ofBool b) = some (if b then 1#32 else 0#32) := by cases b <;> rfl

theorem inView_time (t : Time) : inView t = some t := congrArg some (BitVec.setWidth_eq t)

theorem Phase.inView_code (p : Phase) : inView p.code = some (if p = .blink then 0#32 else if p = .render then 1#32
    else if p = .emit then 2#32 else if p = .pollInc then 3#32 else if p = .pollDec then 4#32 else 5#32) := by
  cases p <;> rfl

theorem BtnState.inView_code (b : BtnState) : inView b.code = some (if b = .suppressed then 1#32 else 0#32) := by
  cases b <;> rfl

theorem FaultCode.inView_code (c : FaultCode) : inView c.code = some (if c = .noFault then 0#32
    else if c = .illegalCommand then 1#32 else if c = .rangeViolation then 2#32 else 3#32) := by
  cases c <;> rfl

/-- Settles O51: each number by the register it names, the pixels by their index, and the gaps of the table. -/
theorem registerViewNumbers : Obligations.RegisterViewNumbers := by
  intro s
  exact ⟨s.ph.inView_code, inView_time s.now, rfl, rfl, inView_ofBool s.fbValid, s.btnInc.state.inView_code,
    s.btnDec.state.inView_code, inView_time s.btnInc.t, inView_time s.btnDec.t, rfl, inView_ofBool s.blinkOn,
    inView_time s.blinkT, rfl, inView_ofBool s.statusOut, by cases h : s.res <;> simp [State.view, h, inView],
    inView_ofBool s.resValid, s.fault.inView_code, inView_time s.faultWord, s.view_pixel_eq, fun _ => s.view_unlisted⟩

end Sys2Proof.Machine
